-- ==== Sys2Proof/Word.lean ====
section
/-! DEFINITION. The word types of the round-pipeline engine: byte, bus word, Block, KeySchedule, Piece (R11, R12). -/

namespace Sys2Proof

/-- A byte is 8 bits (R11). -/
abbrev Byte := BitVec 8

/-- One host bus word: every transaction moves exactly 32 bits (R80). -/
abbrev Word := BitVec 32

/-- A Block is a sequence of 16 bytes b[0..15] (R12), which R153 treats as a bit vector under exclusive-or: byte `i` is
bits `8i+7 : 8i`, the little-endian packing of R81. -/
abbrev Block := BitVec 128

/-- A KeySchedule is a sequence of 176 bytes: round key `k` (0..10) is bytes 16k .. 16k+15 (R12), that is bits
`128k+127 : 128k`. -/
abbrev KeySchedule := BitVec 1408

/-- A Piece by its Blocks, block 0 first (R12). A piece read from a PIECE slot has 256 of them. -/
abbrev Piece := List Block

end Sys2Proof
end

