-- ==== Sys2Proof/Syntax.lean ====
section
/-! DEFINITION. The commands of the engine, one constructor per row of the opcode table (R113), and the two ways a word fails to be one. -/

namespace Sys2Proof

/-- A command of the RPE, with its fields as the command word holds them (R111, R112). All other operands are implicit
(R112). -/
inductive Instr
  /-- NOP: no operation (R150). -/
  | nop
  /-- KEYGEN: expand IDENT into both schedule banks (R175). -/
  | keygen
  /-- PERM_FWD: forward round pipeline on N lanes (R200). -/
  | permFwd (n : BitVec 4)
  /-- PERM_INV: inverse round pipeline on N lanes (R201). -/
  | permInv (n : BitVec 4)
  /-- POR_ENC: encode K = N pieces in place (R236). -/
  | porEnc (n : BitVec 4)
  /-- POR_DEC: decode K = N pieces in place (R237). -/
  | porDec (n : BitVec 4)
  /-- POT_PROVE: build a proof of V checkpoints (R265). -/
  | potProve (v : BitVec 5)
  /-- POT_VERIFY: check intervals FIRST .. LAST of a proof of V checkpoints (R266). -/
  | potVerify (v : BitVec 5) (first last : BitVec 4)
  deriving DecidableEq, Repr

/-- Why a 32-bit word is no command (R115, R116). -/
inductive DecodeError
  /-- OP is 8 .. 15 (R115). -/
  | illegalOp
  /-- OP is 0 .. 7 and a bit outside the opcode's free fields is 1 (R116). -/
  | badField
  deriving DecidableEq, Repr

end Sys2Proof
end

