-- ==== Sys2Proof/Decode.lean ====
section
/-! DEFINITION. The decoder, total on all 2^32 words, and the encoder (30_encoding.md, R111 to R119). -/

namespace Sys2Proof

/-- OP = cmd[3:0] (R112). -/
def opField (d : Word) : BitVec 4 := d.extractLsb' 0 4

/-- N = cmd[11:8] (R112). -/
def nField (d : Word) : BitVec 4 := d.extractLsb' 8 4

/-- V = cmd[20:16] (R112). -/
def vField (d : Word) : BitVec 5 := d.extractLsb' 16 5

/-- FIRST = cmd[27:24] (R112). -/
def firstField (d : Word) : BitVec 4 := d.extractLsb' 24 4

/-- LAST = cmd[31:28] (R112). -/
def lastField (d : Word) : BitVec 4 := d.extractLsb' 28 4

/-- FIXMASK(OP): the bits outside the opcode's free fields, OP among them (R113, R144). For an illegal OP only OP itself is
fixed. -/
def fixMask (op : BitVec 4) : Word :=
  match op.toNat with
  | 0 => 0xFFFFFFFF
  | 1 => 0xFFFFFFFF
  | 2 => 0xFFFFF0FF
  | 3 => 0xFFFFF0FF
  | 4 => 0xFFFFF0FF
  | 5 => 0xFFFFF0FF
  | 6 => 0xFFE0FFFF
  | 7 => 0x00E0FFFF
  | _ => 0x0000000F

/-- The command a word of a legal OP stands for, its fields read at the places of R111. -/
def instrOf (d : Word) : Instr :=
  match (opField d).toNat with
  | 0 => .nop
  | 1 => .keygen
  | 2 => .permFwd (nField d)
  | 3 => .permInv (nField d)
  | 4 => .porEnc (nField d)
  | 5 => .porDec (nField d)
  | 6 => .potProve (vField d)
  | _ => .potVerify (vField d) (firstField d) (lastField d)

/-- The decoder (R113): OP first, then the bits that must be 0 (R115, R116). Whether the field values are legal is a
separate check, made at launch (R117). -/
def decode (d : Word) : Except DecodeError Instr :=
  if 8 ≤ (opField d).toNat then .error .illegalOp
  else if d &&& fixMask (opField d) &&& 0xFFFFFFF0 ≠ 0 then .error .badField
  else .ok (instrOf d)

/-- The word of a command, bit by bit from the patterns of R114. -/
def encode : Instr → Word
  | .nop => 0x00000000
  | .keygen => 0x00000001
  | .permFwd n => 0#20 ++ n ++ 0x02#8
  | .permInv n => 0#20 ++ n ++ 0x03#8
  | .porEnc n => 0#20 ++ n ++ 0x04#8
  | .porDec n => 0#20 ++ n ++ 0x05#8
  | .potProve v => 0#11 ++ v ++ 0x0006#16
  | .potVerify v first last => last ++ first ++ 0#3 ++ v ++ 0x0007#16

/-- One row of the opcode map of R113. -/
structure OpcodeRow where
  /-- The bits the row fixes. -/
  mask : Word
  /-- Their values. -/
  bits : Word
  deriving DecidableEq, Repr

/-- The rows of R113 in order, OP 0 to 7. -/
def opcodeMap : List OpcodeRow :=
  [⟨0xFFFFFFFF, 0x00000000⟩, ⟨0xFFFFFFFF, 0x00000001⟩, ⟨0xFFFFF0FF, 0x00000002⟩, ⟨0xFFFFF0FF, 0x00000003⟩,
   ⟨0xFFFFF0FF, 0x00000004⟩, ⟨0xFFFFF0FF, 0x00000005⟩, ⟨0xFFE0FFFF, 0x00000006⟩, ⟨0x00E0FFFF, 0x00000007⟩]

/-- The instruction the decoder reads from a table row's `nbits` bits `w`. Every command is exactly one 32-bit word (R118),
and CMD is a 32-bit number with no byte order of its own (R81), so the bits above `nbits` are the only thing to clear. -/
def decodeTableWord (nbits w : Nat) : Option Instr :=
  match decode (BitVec.ofNat 32 (w % 2 ^ nbits)) with
  | .ok i => some i
  | .error _ => none

end Sys2Proof
end

