-- ==== Sys2Proof/Machine/Blocks.lean ====
section
/-! DEFINITION. The bytes of a Block and the round keys of a KeySchedule (R12). -/

namespace Sys2Proof

/-- Byte `i` of a Block (R12). -/
def Block.byte (b : Block) (i : Nat) : Byte := b.extractLsb' (8 * i) 8

/-- The Block whose byte `i` is `f i`. -/
def Block.ofFn (f : Nat → Byte) : Block :=
  f 15 ++ f 14 ++ f 13 ++ f 12 ++ f 11 ++ f 10 ++ f 9 ++ f 8
    ++ f 7 ++ f 6 ++ f 5 ++ f 4 ++ f 3 ++ f 2 ++ f 1 ++ f 0

/-- The Block written as a number whose hex digits are its bytes, byte 0 first, as R11 writes byte sequences. -/
def Block.ofHex (n : Nat) : Block := Block.ofFn fun i => BitVec.ofNat 8 (n >>> (8 * (15 - i)))

/-- rk(ks, k): round key `k` of a KeySchedule, bytes 16k .. 16k+15 (R12). -/
def KeySchedule.rk (ks : KeySchedule) (k : Nat) : Block := ks.extractLsb' (128 * k) 128

/-- The KeySchedule whose round key `k` is `f k`. -/
def KeySchedule.ofRoundKeys (f : Nat → Block) : KeySchedule :=
  f 10 ++ f 9 ++ f 8 ++ f 7 ++ f 6 ++ f 5 ++ f 4 ++ f 3 ++ f 2 ++ f 1 ++ f 0

end Sys2Proof
end

