-- ==== Sys2Proof/Machine/Aes.lean ====
section
/-! DEFINITION. The default instantiation of PERM and KEYEXP: AES-128 (R172, R173, R192 to R199) [from general knowledge, not in source; log entry 7]. -/

namespace Sys2Proof.Machine

/-- The SBOX table of R194, row = high nibble, column = low nibble [from general knowledge, not in source]. -/
def sboxRows : List (List Byte) :=
  [[0x63, 0x7c, 0x77, 0x7b, 0xf2, 0x6b, 0x6f, 0xc5, 0x30, 0x01, 0x67, 0x2b, 0xfe, 0xd7, 0xab, 0x76],
   [0xca, 0x82, 0xc9, 0x7d, 0xfa, 0x59, 0x47, 0xf0, 0xad, 0xd4, 0xa2, 0xaf, 0x9c, 0xa4, 0x72, 0xc0],
   [0xb7, 0xfd, 0x93, 0x26, 0x36, 0x3f, 0xf7, 0xcc, 0x34, 0xa5, 0xe5, 0xf1, 0x71, 0xd8, 0x31, 0x15],
   [0x04, 0xc7, 0x23, 0xc3, 0x18, 0x96, 0x05, 0x9a, 0x07, 0x12, 0x80, 0xe2, 0xeb, 0x27, 0xb2, 0x75],
   [0x09, 0x83, 0x2c, 0x1a, 0x1b, 0x6e, 0x5a, 0xa0, 0x52, 0x3b, 0xd6, 0xb3, 0x29, 0xe3, 0x2f, 0x84],
   [0x53, 0xd1, 0x00, 0xed, 0x20, 0xfc, 0xb1, 0x5b, 0x6a, 0xcb, 0xbe, 0x39, 0x4a, 0x4c, 0x58, 0xcf],
   [0xd0, 0xef, 0xaa, 0xfb, 0x43, 0x4d, 0x33, 0x85, 0x45, 0xf9, 0x02, 0x7f, 0x50, 0x3c, 0x9f, 0xa8],
   [0x51, 0xa3, 0x40, 0x8f, 0x92, 0x9d, 0x38, 0xf5, 0xbc, 0xb6, 0xda, 0x21, 0x10, 0xff, 0xf3, 0xd2]]
  ++ [[0xcd, 0x0c, 0x13, 0xec, 0x5f, 0x97, 0x44, 0x17, 0xc4, 0xa7, 0x7e, 0x3d, 0x64, 0x5d, 0x19, 0x73],
      [0x60, 0x81, 0x4f, 0xdc, 0x22, 0x2a, 0x90, 0x88, 0x46, 0xee, 0xb8, 0x14, 0xde, 0x5e, 0x0b, 0xdb],
      [0xe0, 0x32, 0x3a, 0x0a, 0x49, 0x06, 0x24, 0x5c, 0xc2, 0xd3, 0xac, 0x62, 0x91, 0x95, 0xe4, 0x79],
      [0xe7, 0xc8, 0x37, 0x6d, 0x8d, 0xd5, 0x4e, 0xa9, 0x6c, 0x56, 0xf4, 0xea, 0x65, 0x7a, 0xae, 0x08],
      [0xba, 0x78, 0x25, 0x2e, 0x1c, 0xa6, 0xb4, 0xc6, 0xe8, 0xdd, 0x74, 0x1f, 0x4b, 0xbd, 0x8b, 0x8a],
      [0x70, 0x3e, 0xb5, 0x66, 0x48, 0x03, 0xf6, 0x0e, 0x61, 0x35, 0x57, 0xb9, 0x86, 0xc1, 0x1d, 0x9e],
      [0xe1, 0xf8, 0x98, 0x11, 0x69, 0xd9, 0x8e, 0x94, 0x9b, 0x1e, 0x87, 0xe9, 0xce, 0x55, 0x28, 0xdf],
      [0x8c, 0xa1, 0x89, 0x0d, 0xbf, 0xe6, 0x42, 0x68, 0x41, 0x99, 0x2d, 0x0f, 0xb0, 0x54, 0xbb, 0x16]]

/-- The INV_SBOX table of R194, row = high nibble, column = low nibble [from general knowledge, not in source]. -/
def invSboxRows : List (List Byte) :=
  [[0x52, 0x09, 0x6a, 0xd5, 0x30, 0x36, 0xa5, 0x38, 0xbf, 0x40, 0xa3, 0x9e, 0x81, 0xf3, 0xd7, 0xfb],
   [0x7c, 0xe3, 0x39, 0x82, 0x9b, 0x2f, 0xff, 0x87, 0x34, 0x8e, 0x43, 0x44, 0xc4, 0xde, 0xe9, 0xcb],
   [0x54, 0x7b, 0x94, 0x32, 0xa6, 0xc2, 0x23, 0x3d, 0xee, 0x4c, 0x95, 0x0b, 0x42, 0xfa, 0xc3, 0x4e],
   [0x08, 0x2e, 0xa1, 0x66, 0x28, 0xd9, 0x24, 0xb2, 0x76, 0x5b, 0xa2, 0x49, 0x6d, 0x8b, 0xd1, 0x25],
   [0x72, 0xf8, 0xf6, 0x64, 0x86, 0x68, 0x98, 0x16, 0xd4, 0xa4, 0x5c, 0xcc, 0x5d, 0x65, 0xb6, 0x92],
   [0x6c, 0x70, 0x48, 0x50, 0xfd, 0xed, 0xb9, 0xda, 0x5e, 0x15, 0x46, 0x57, 0xa7, 0x8d, 0x9d, 0x84],
   [0x90, 0xd8, 0xab, 0x00, 0x8c, 0xbc, 0xd3, 0x0a, 0xf7, 0xe4, 0x58, 0x05, 0xb8, 0xb3, 0x45, 0x06],
   [0xd0, 0x2c, 0x1e, 0x8f, 0xca, 0x3f, 0x0f, 0x02, 0xc1, 0xaf, 0xbd, 0x03, 0x01, 0x13, 0x8a, 0x6b]]
  ++ [[0x3a, 0x91, 0x11, 0x41, 0x4f, 0x67, 0xdc, 0xea, 0x97, 0xf2, 0xcf, 0xce, 0xf0, 0xb4, 0xe6, 0x73],
      [0x96, 0xac, 0x74, 0x22, 0xe7, 0xad, 0x35, 0x85, 0xe2, 0xf9, 0x37, 0xe8, 0x1c, 0x75, 0xdf, 0x6e],
      [0x47, 0xf1, 0x1a, 0x71, 0x1d, 0x29, 0xc5, 0x89, 0x6f, 0xb7, 0x62, 0x0e, 0xaa, 0x18, 0xbe, 0x1b],
      [0xfc, 0x56, 0x3e, 0x4b, 0xc6, 0xd2, 0x79, 0x20, 0x9a, 0xdb, 0xc0, 0xfe, 0x78, 0xcd, 0x5a, 0xf4],
      [0x1f, 0xdd, 0xa8, 0x33, 0x88, 0x07, 0xc7, 0x31, 0xb1, 0x12, 0x10, 0x59, 0x27, 0x80, 0xec, 0x5f],
      [0x60, 0x51, 0x7f, 0xa9, 0x19, 0xb5, 0x4a, 0x0d, 0x2d, 0xe5, 0x7a, 0x9f, 0x93, 0xc9, 0x9c, 0xef],
      [0xa0, 0xe0, 0x3b, 0x4d, 0xae, 0x2a, 0xf5, 0xb0, 0xc8, 0xeb, 0xbb, 0x3c, 0x83, 0x53, 0x99, 0x61],
      [0x17, 0x2b, 0x04, 0x7e, 0xba, 0x77, 0xd6, 0x26, 0xe1, 0x69, 0x14, 0x63, 0x55, 0x21, 0x0c, 0x7d]]

/-- A table's entry for `x`: row = high nibble, column = low nibble (R194). -/
def tableEntry (t : List (List Byte)) (x : Byte) : Byte := (t.getD (x.toNat / 16) []).getD (x.toNat % 16) 0

/-- SBOX[x] (R194). -/
def sbox (x : Byte) : Byte := tableEntry sboxRows x

/-- INV_SBOX[x] (R194). -/
def invSbox (x : Byte) : Byte := tableEntry invSboxRows x

/-- Multiplication by x in GF(2^8) (R196). -/
def xtime (a : Byte) : Byte := (a <<< 1) ^^^ (if a.getLsbD 7 then 0x1B else 0x00)

/-- The part of `a • b` from the bits of `b` below `n` (R196). -/
def gfMulBelow (a b : Byte) : Nat → Byte
  | 0 => 0
  | n + 1 => gfMulBelow a b n ^^^ (if b.getLsbD n then xtime^[n] a else 0)

/-- `a • b = ⊕ over i in 0..7 with b[i] = 1 of xtime^i(a)` (R196). -/
def gfMul (a b : Byte) : Byte := gfMulBelow a b 8

/-- SubBytes (R194). -/
def subBytes (s : Block) : Block := Block.ofFn fun i => sbox (s.byte i)

/-- InvSubBytes (R194). -/
def invSubBytes (s : Block) : Block := Block.ofFn fun i => invSbox (s.byte i)

/-- ShiftRows: `ShiftRows(b)[r + 4c] = b[r + 4((c + r) mod 4)]` (R193, R195). -/
def shiftRows (s : Block) : Block := Block.ofFn fun i => s.byte (i % 4 + 4 * ((i / 4 + i % 4) % 4))

/-- InvShiftRows: `InvShiftRows(s)[r, c] = s[r, (c − r) mod 4]` (R193, R195). -/
def invShiftRows (s : Block) : Block := Block.ofFn fun i => s.byte (i % 4 + 4 * ((i / 4 + 4 - i % 4) % 4))

/-- Each column of the state multiplied by the circulant matrix whose first row is (m0, m1, m2, m3) (R193, R197): row r of
the result is m0•a_r ⊕ m1•a_(r+1) ⊕ m2•a_(r+2) ⊕ m3•a_(r+3), the indices mod 4. -/
def mixWith (m0 m1 m2 m3 : Byte) (s : Block) : Block :=
  Block.ofFn fun i =>
    gfMul m0 (s.byte (4 * (i / 4) + i % 4)) ^^^ gfMul m1 (s.byte (4 * (i / 4) + (i % 4 + 1) % 4))
      ^^^ gfMul m2 (s.byte (4 * (i / 4) + (i % 4 + 2) % 4)) ^^^ gfMul m3 (s.byte (4 * (i / 4) + (i % 4 + 3) % 4))

/-- MixColumns (R197). -/
def mixColumns (s : Block) : Block := mixWith 0x02 0x03 0x01 0x01 s

/-- InvMixColumns (R197). -/
def invMixColumns (s : Block) : Block := mixWith 0x0e 0x0b 0x0d 0x09 s

/-- AddRoundKey (R198). -/
def addRoundKey (ks : KeySchedule) (k : Nat) (s : Block) : Block := s ^^^ ks.rk k

/-- The rounds `1 .. n` of the default Fwd (R199). -/
def fwdRounds (ks : KeySchedule) (s : Block) : Nat → Block
  | 0 => s
  | n + 1 => addRoundKey ks (n + 1) (mixColumns (shiftRows (subBytes (fwdRounds ks s n))))

/-- The default Fwd (R199). -/
def aesFwd (ks : KeySchedule) (b : Block) : Block :=
  addRoundKey ks 10 (shiftRows (subBytes (fwdRounds ks (addRoundKey ks 0 b) 9)))

/-- The rounds `1 .. n` of the default Inv (R199). -/
def invRounds (ks : KeySchedule) (s : Block) : Nat → Block
  | 0 => s
  | n + 1 => addRoundKey ks (n + 1) (invMixColumns (invSubBytes (invShiftRows (invRounds ks s n))))

/-- The default Inv (R199). -/
def aesInv (ks : KeySchedule) (b : Block) : Block :=
  addRoundKey ks 10 (invSubBytes (invShiftRows (invRounds ks (addRoundKey ks 0 b) 9)))

/-! ## Key expansion (R172, R173). A key word is 4 bytes with a0 first in memory, here in the low bits. -/

/-- RCON[1..10] (R172). -/
def rconTable : List Byte := [0x01, 0x02, 0x04, 0x08, 0x10, 0x20, 0x40, 0x80, 0x1b, 0x36]

/-- RCON[i] (R172). -/
def rcon (i : Nat) : Byte := rconTable.getD (i - 1) 0

/-- RotWord((a0, a1, a2, a3)) = (a1, a2, a3, a0) (R172). -/
def rotWord (w : Word) : Word := w.rotateRight 8

/-- SubWord (R172): SBOX of each byte. -/
def subWord (w : Word) : Word :=
  sbox (w.extractLsb' 24 8) ++ sbox (w.extractLsb' 16 8) ++ sbox (w.extractLsb' 8 8) ++ sbox (w.extractLsb' 0 8)

/-- The four words after (w0, w1, w2, w3) = w[4i−4 .. 4i−1] of the recurrence of R172: w[4i .. 4i+3], as one Block. -/
def nextRoundKey (i : Nat) (k : Block) : Block :=
  let t := subWord (rotWord (k.extractLsb' 96 32)) ^^^ (rcon i).setWidth 32
  let w0 : Word := k.extractLsb' 0 32 ^^^ t
  let w1 : Word := k.extractLsb' 32 32 ^^^ w0
  let w2 : Word := k.extractLsb' 64 32 ^^^ w1
  let w3 : Word := k.extractLsb' 96 32 ^^^ w2
  w3 ++ w2 ++ w1 ++ w0

/-- rk(F, k) of KeyExpandAES128 (R172). -/
def aesRoundKey (id : Block) : Nat → Block
  | 0 => id
  | k + 1 => nextRoundKey (k + 1) (aesRoundKey id k)

/-- InverseSchedule (R173). -/
def inverseSchedule (f : KeySchedule) : KeySchedule :=
  KeySchedule.ofRoundKeys fun k => if k = 0 then f.rk 10 else if k = 10 then f.rk 0 else invMixColumns (f.rk (10 - k))

/-- The default KEYEXP: KeyExpandAES128 (R172, R173). -/
def aesKeyExp (id : Block) : KeySchedule × KeySchedule :=
  let f := KeySchedule.ofRoundKeys (aesRoundKey id)
  (f, inverseSchedule f)

end Sys2Proof.Machine
end

