-- ==== Sys2Proof/Config.lean ====
section
/-! DEFINITION. What an implementation of the RPE fixes (R7, D-table of 92_eei_decisions.md) and the values the spec leaves free. -/

namespace Sys2Proof

/-- The four variants, in the order of their VARIANT codes 0 .. 3 (R2). Codes 4 .. 15 are never reported. -/
inductive Variant
  /-- "scalar table", W = 1. -/
  | scalarTable
  /-- "8-wide bit-sliced", W = 8. -/
  | bitsliced8
  /-- "4-wide hardware-pipelined", W = 4. -/
  | pipe4
  /-- "12-wide hardware-pipelined", W = 12. -/
  | pipe12
  deriving DecidableEq, Repr

/-- A block-permutation pair PERM (R190) that meets the laws the spec requires of it under the key expansion `keyExp`
(R191). A law is a field, so a pair that breaks one cannot be built. -/
structure LawfulPerm (keyExp : Block → KeySchedule × KeySchedule) where
  /-- Fwd of R190. -/
  fwd : KeySchedule → Block → Block := fun _ b => b
  /-- Inv of R190. -/
  inv : KeySchedule → Block → Block := fun _ b => b
  /-- R191(a): for every schedule, Fwd is a bijection on Blocks. -/
  fwd_bijective : ∀ ks, Function.Bijective (fwd ks) := by intro ks; exact Function.bijective_id
  /-- R191(b), which is R171 at R = 1. -/
  inv_fwd : ∀ id b, inv (keyExp id).2 (fwd (keyExp id).1 b) = b := by intros; rfl
  deriving Inhabited

/-- A key expansion KEYEXP (R170) that meets the law the spec requires of it (R171, at R = 1) under the default
permutation. -/
structure LawfulAesKeyExp where
  /-- KEYEXP of R170: the identifier to (forward, inverse) schedule. -/
  keyExp : Block → KeySchedule × KeySchedule
  /-- R171 at R = 1, which is R191(b). -/
  inv_fwd : ∀ id b, Machine.aesInv (keyExp id).2 (Machine.aesFwd (keyExp id).1 b) = b

/-- The parameter PERM (R7, U11). -/
inductive PermSel
  /-- The default, AES-128 (R192) [from general knowledge, not in source]. -/
  | aes128
  /-- Another pair, known only by a number (`Config.customPerm`). -/
  | custom (number : Nat)
  deriving DecidableEq, Repr

/-- The parameter KEYEXP (R7, U12). -/
inductive KeyExpSel
  /-- The default, the AES-128 key expansion (R172, R173) [from general knowledge, not in source]. -/
  | aes128
  /-- Another key expansion, known only by a number (`Config.customKeyExp`, or `Config.customAesKeyExp` where PERM is the
  default). -/
  | custom (number : Nat)
  deriving DecidableEq, Repr

/-- PERM and KEYEXP together, each chosen on its own (R7): what the laws R171 and R191(b) are about. -/
structure CipherSel where
  /-- PERM. -/
  perm : PermSel
  /-- KEYEXP. -/
  keyExp : KeyExpSel
  deriving DecidableEq, Repr

/-- Both defaults (R7). -/
def CipherSel.aes128 : CipherSel := { perm := .aes128, keyExp := .aes128 }

/-- The configuration of one instance (R5, R7). KSET is held as the counts it has beyond 1 and W, so that it always holds
1 and W, as R5 requires. -/
structure Config where
  /-- VARIANT; it fixes W (R2). -/
  variant : Variant
  /-- 4 is in KSET, whatever W is. -/
  extra4 : Bool
  /-- 8 is in KSET, whatever W is. -/
  extra8 : Bool
  /-- 12 is in KSET, whatever W is. -/
  extra12 : Bool
  /-- Q = 12; otherwise Q = 1 (R5, D7). -/
  q12 : Bool
  /-- HAS_KEYGEN = 1: the KEYGEN command is present (R5, D4). -/
  hasKeygen : Bool
  /-- PERM (R7, D3). -/
  perm : PermSel
  /-- KEYEXP (R7, D4). -/
  keyExp : KeyExpSel
  /-- RPE_BASE / 0x20000 (R87: RPE_BASE is a multiple of 0x20000, left OPEN). -/
  baseIndex : Nat
  deriving DecidableEq, Repr

/-- PERM and KEYEXP of an instance (R7). -/
def Config.cipher (c : Config) : CipherSel := { perm := c.perm, keyExp := c.keyExp }

/-- The configuration of the machine `Sys2Proof.core` resets to: `RPE1-PIPE4-K1.4-Q12-G1`, the one 95_test_vectors.md uses
"unless stated otherwise", with the window at host address 0. DESIGN CHOICE (log entry 1): VARIANT and RPE_BASE have no
default in the spec. Every other value is the default of R5. unsafe -/
def Config.default : Config where
  variant := .pipe4
  extra4 := false
  extra8 := false
  extra12 := false
  q12 := true
  hasKeygen := true
  perm := .aes128
  keyExp := .aes128
  baseIndex := 0

/-- FREE VALUE (U12; log entry 2): the key expansions other than the default of an instance whose PERM is not the default
either. Any function, for the law R171 is met by the choice of PERM (`Config.customPerm`). safe -/
opaque Config.customKeyExp : Nat → Block → KeySchedule × KeySchedule

/-- FREE VALUE (U11; log entry 2): the permutation pairs other than the default, under a key expansion. Nothing is known of
them but the laws of R191, which `LawfulPerm` carries. safe -/
opaque Config.customPerm (keyExp : Block → KeySchedule × KeySchedule) : Nat → LawfulPerm keyExp

/-- FREE VALUE (U12; log entry 2): the key expansions other than the default under the default PERM. Nothing is known of them
but the law of R171, which `LawfulAesKeyExp` carries; `none` stands for the default KEYEXP. safe -/
opaque Config.customAesKeyExp : Nat → Option LawfulAesKeyExp

/-- FREE VALUE (R55, U3; log entry 3): what host reads of a running command's write set return, one fresh word per read.
`Config.unspecifiedWord base n` is draw `n` (`State.draws`) of the instance whose window has place `base`
(`Config.baseIndex`), so the draws of two instances of a system, whose windows differ (R96), are not related. safe -/
opaque Config.unspecifiedWord : Nat → Nat → Word

end Sys2Proof
end

