-- ==== Sys2Proof/Machine/Capabilities.lean ====
section
/-! DEFINITION. What the configuration fixes (R2, R5, R33): W, KSET, Q, the ID and CAPS words, the window base, the configuration string. -/

namespace Sys2Proof

/-- The lane and slot count W of a variant (R2). -/
def Variant.width : Variant → Nat
  | .scalarTable => 1
  | .bitsliced8 => 8
  | .pipe4 => 4
  | .pipe12 => 12

/-- The VARIANT code (R2). -/
def Variant.code : Variant → BitVec 4
  | .scalarTable => 0
  | .bitsliced8 => 1
  | .pipe4 => 2
  | .pipe12 => 3

/-- W (R7). -/
def Config.width (c : Config) : Nat := c.variant.width

/-- N is in KSET (R5): 1 and W always are, the other counts as the implementation chose. -/
def Config.accepts (c : Config) (n : Nat) : Bool :=
  n == 1 || n == c.width || (n == 4 && c.extra4) || (n == 8 && c.extra8) || (n == 12 && c.extra12)

/-- Q, the iteration quantum of POT_PROVE (R5, R7). -/
def Config.quantum (c : Config) : Nat := if c.q12 then 12 else 1

/-- RPE_BASE, a multiple of 0x20000 (R87). -/
def Config.windowBase (c : Config) : Nat := c.baseIndex * 0x20000

/-- What ID reads: ASCII "RPE1" with 'R' in bits 31:24 (R31). -/
def idWord : Word := 0x52504531

/-- What CAPS reads (R33). -/
def Config.capsWord (c : Config) : Word :=
  0#14 ++ BitVec.ofBool c.q12 ++ BitVec.ofBool c.hasKeygen ++ c.variant.code
    ++ BitVec.ofBool (c.accepts 12) ++ BitVec.ofBool (c.accepts 8) ++ BitVec.ofBool (c.accepts 4)
    ++ BitVec.ofBool (c.accepts 1) ++ 0#3 ++ BitVec.ofNat 5 c.width

/-- The variant's name in the configuration string (R2). -/
def Variant.name : Variant → String
  | .scalarTable => "SCALAR_TABLE"
  | .bitsliced8 => "BITSLICED8"
  | .pipe4 => "PIPE4"
  | .pipe12 => "PIPE12"

/-- The configuration string `RPE1-<VARIANT>-K<members of KSET joined by '.'>-Q<Q>-G<HAS_KEYGEN>` (R4). -/
def Config.identity (c : Config) : String :=
  "RPE1-" ++ c.variant.name
    ++ "-K1" ++ (if c.accepts 4 then ".4" else "") ++ (if c.accepts 8 then ".8" else "")
    ++ (if c.accepts 12 then ".12" else "")
    ++ (if c.q12 then "-Q12" else "-Q1") ++ (if c.hasKeygen then "-G1" else "-G0")

end Sys2Proof
end

