-- ==== Sys2Proof/Machine/State.lean ====
section
/-! DEFINITION. The architectural state of one RPE instance as plain data (R30), what its two agents do next, why a step stops, and the state after hard reset (R56). -/

namespace Sys2Proof.Machine

/-- Why a step stops with a fault. None is a hardware event: a fault means "the spec names no result" (R297). All are safe:
the chip goes on where the model stops. -/
inductive Fault
  /-- Raised by the completion of a command one of whose input bytes is undefined (R53, R147). safe -/
  | undefinedInput
  /-- Raised by a host read of a word that holds an undefined byte (R53, R297). safe -/
  | undefinedRead
  /-- Raised by an access that the interface cannot express: sub-word, misaligned or outside the window (R84, R297,
  U17). safe -/
  | inexpressibleAccess
  deriving DecidableEq, Repr

/-- Why a step is refused. -/
inductive Refusal
  /-- Raised by no arm of this model: every command has its meaning. It would name a command without one. safe -/
  | notModelled (mnemonic : String)
  /-- Raised by the engine's turn when BUSY = 1 and CUR is no command. No run reaches it: an accepted launch writes CUR only
  with a word that passed Check (R142, R144). safe -/
  | undecodableCommand (e : DecodeError)
  deriving DecidableEq, Repr

/-- The F-HOST format: a host bus transaction `{RW, WA, D}` (R110). -/
structure HostTxn where
  /-- RW = 1: a HostWrite; RW = 0: a HostRead. -/
  write : Bool
  /-- WA, a word address: byte offset 4·WA (R80). -/
  wa : BitVec 15
  /-- D, the word a HostWrite carries. -/
  d : Word
  deriving DecidableEq, Repr

/-- One thing that happens next to the instance: which agent moves and, for what comes from outside, with what. The list of
them in `State.inputs` is the interleaving of R89 that the spec leaves free (U5); the model's own, not the spec's (log
entry 4). -/
inductive Input
  /-- The host port performs a transaction (R89). -/
  | host (t : HostTxn)
  /-- The platform's bus bridge offers an access of `width` bytes at the host physical address `addr`, a store when it
  carries data (R84, R87). -/
  | access (addr : Nat) (width : Nat) (data : Option Word)
  /-- The engine gets its turn: it completes the running command, if there is one (R143, R148). -/
  | engine
  /-- The platform asserts the reset input, or power comes up (R330). -/
  | hardReset
  deriving DecidableEq, Repr

/-- The data windows' bytes by byte offset in the host window, the addresses strictly rising. An unlisted address holds
no defined byte (R53). -/
abbrev Mem := List Host.Cell

/-- The canonical form of memory: addresses strictly rising. (No entry can equal what an unlisted address reads as: that is
no value.) -/
abbrev Mem.wf (m : Mem) : Prop := m.Pairwise fun x y => x.1 < y.1

/-- The architectural state of one instance: the record of R30, with the configuration it takes as parameters, and three
fields of the model's own (`inputs`, `draws`, `rdata`). -/
structure State where
  /-- The configuration (R7). No step changes it. -/
  cfg : Config
  /-- CTRL.IE, interrupt enable (R34). -/
  ie : Bool
  /-- STATUS.BUSY: a command is running (R35). -/
  busy : Bool
  /-- STATUS.DONE (R35). -/
  done : Bool
  /-- STATUS.ERR (R35). -/
  err : Bool
  /-- STATUS.VOK: the last POT_VERIFY gave true (R35). -/
  vok : Bool
  /-- STATUS.ERRCODE (R35, R290). -/
  errcode : BitVec 4
  /-- ITER (R37). -/
  iter : Word
  /-- BREADTH (R38). -/
  breadth : Word
  /-- CUR, the in-flight command word, meaningful only while BUSY = 1 (R50). -/
  cur : Word
  /-- KS_FWD, KS_INV, IDENT, SEED, IV, LANE, PROOF and PIECE by byte offset (R42 to R48, R39, R82); an unlisted byte is
  undefined (R53). -/
  mem : Mem
  /-- What happens next, in order. The model's own: the schedule of R89 and R148, and the host's transactions. -/
  inputs : List Input
  /-- How many unspecified words have been drawn. The model's own: it makes each draw of U3 fresh. -/
  draws : Nat
  /-- What the last HostRead returned; `none` before the first. The model's own: the host's side of the bus. -/
  rdata : Option Word
  deriving DecidableEq, Repr

/-- The state right after a hard reset of an instance with configuration `c` (R56, R330): IE, BUSY, DONE, ERR, VOK and
ERRCODE 0, ITER 0, BREADTH 1, every data-window byte undefined. CUR is unspecified and not meaningful: 0 is a DESIGN CHOICE
(log entry 5, unsafe). -/
def State.resetWith (c : Config) : State where
  cfg := c
  ie := false
  busy := false
  done := false
  err := false
  vok := false
  errcode := 0
  iter := 0
  breadth := 1
  cur := 0
  mem := []
  inputs := []
  draws := 0
  rdata := none

/-- The machine right after a hard reset, in the configuration of log entry 1. -/
def State.reset : State := State.resetWith Config.default

end Sys2Proof.Machine
end

