-- ==== Sys2Proof/Machine/Flags.lean ====
section
/-! DEFINITION. STATUS, its flags and error codes, CTRL, and the interrupt output (R34, R35, R41, R52, R290). -/

namespace Sys2Proof.Machine

/-- The causes of an error (R290). -/
inductive ErrCode
  /-- OP = cmd[3:0] ≥ 8. -/
  | illegalOp
  /-- A reserved bit, or a field the opcode does not use, is 1. -/
  | badField
  /-- N is not in {1, 4, 8, 12}. -/
  | badCount
  /-- ITER = 0 (POR, POT); ITER mod V ≠ 0 (POT); ITER mod Q ≠ 0 (POT_PROVE). -/
  | badIter
  /-- BREADTH = 0. -/
  | badBreadth
  /-- V is not in {4, 8, 12, 16}. -/
  | badVpar
  /-- Not FIRST ≤ LAST ≤ V − 1. -/
  | badRange
  /-- A host write to CMD, ITER, BREADTH or a data window while BUSY = 1. -/
  | busy
  /-- N in {1, 4, 8, 12} but not in KSET; or KEYGEN with HAS_KEYGEN = 0. -/
  | unsupported
  deriving DecidableEq, Repr

/-- The code STATUS.ERRCODE shows for a cause (R290); 0 means no error. -/
def ErrCode.code : ErrCode → BitVec 4
  | .illegalOp => 1
  | .badField => 2
  | .badCount => 3
  | .badIter => 4
  | .badBreadth => 5
  | .badVpar => 6
  | .badRange => 7
  | .busy => 8
  | .unsupported => 9

/-- What a read of STATUS returns: `{20'b0, ERRCODE, 4'b0, VOK, ERR, DONE, BUSY}` (R35). -/
def State.statusWord (s : State) : Word :=
  0#20 ++ s.errcode ++ 0#4 ++ BitVec.ofBool s.vok ++ BitVec.ofBool s.err ++ BitVec.ofBool s.done ++ BitVec.ofBool s.busy

/-- What a read of CTRL returns: IE in bit 0; SRST and the reserved bits read 0 (R34). -/
def State.ctrlWord (s : State) : Word := 0#31 ++ BitVec.ofBool s.ie

/-- The interrupt output: `IRQ = IE ∧ (DONE ∨ ERR)`, a level signal (R52, R293). -/
def State.irq (s : State) : Bool := s.ie && (s.done || s.err)

/-- DONE ∨ ERR: an interrupt is pending (R293). -/
def State.pending (s : State) : Bool := s.done || s.err

end Sys2Proof.Machine
end

