-- ==== Sys2Proof/Machine/Ops.lean ====
section
/-! DEFINITION. The named operations over memory and registers: MemRead and MemWrite, and each update of the control state a rule names, among them raising an error and acknowledging one (R14, R141 to R143, R294, R295). -/

namespace Sys2Proof.Machine

/-! ## Memory -/

/-- The byte at a byte offset; `none` where it is undefined (R53). -/
def Mem.get : Mem → Nat → Option Byte
  | [], _ => none
  | (k, b) :: m, a => if k = a then some b else Mem.get m a

/-- The byte at offset `a` becomes the defined byte `b`. -/
def Mem.set : Mem → Nat → Byte → Mem
  | [], a, b => [(a, b)]
  | (k, c) :: m, a, b =>
    if a < k then (a, b) :: (k, c) :: m
    else if k = a then (a, b) :: m
    else (k, c) :: Mem.set m a b

/-- Every byte whose offset satisfies `p` becomes undefined (R331). -/
def Mem.undefine (m : Mem) (p : Nat → Bool) : Mem := m.filter fun c => !p c.1

/-- `MemRead(a, n)` (R14): the `n` bytes from offset `a`, the first in the low bits (R81); `none` if one is undefined. -/
def Mem.read (m : Mem) (a : Nat) : (n : Nat) → Option (BitVec (8 * n))
  | 0 => some 0#0
  | n + 1 =>
    match m.get a, Mem.read m (a + 1) n with
    | some lo, some hi => some (hi ++ lo)
    | _, _ => none

/-- `MemWrite(a, n, v)` (R14): the `n` bytes of `v` from offset `a` on, the low one first (R81). -/
def Mem.write (m : Mem) (a : Nat) : (n : Nat) → BitVec (8 * n) → Mem
  | 0, _ => m
  | n + 1, v => Mem.write (m.set a (v.extractLsb' 0 8)) (a + 1) n (v.extractLsb' 8 (8 * n))

/-- The host word at byte offset `a` (R81). -/
def Mem.readWord (m : Mem) (a : Nat) : Option Word := m.read a 4

/-- A host word stored at byte offset `a` (R81). -/
def Mem.writeWord (m : Mem) (a : Nat) (d : Word) : Mem := m.write a 4 d

/-- The Block at byte offset `a` (R12). -/
def Mem.readBlock (m : Mem) (a : Nat) : Option Block := m.read a 16

/-- A Block stored at byte offset `a`. -/
def Mem.writeBlock (m : Mem) (a : Nat) (b : Block) : Mem := m.write a 16 b

/-- The KeySchedule at byte offset `a` (R12). -/
def Mem.readSchedule (m : Mem) (a : Nat) : Option KeySchedule := m.read a 176

/-- A KeySchedule stored at byte offset `a`. -/
def Mem.writeSchedule (m : Mem) (a : Nat) (ks : KeySchedule) : Mem := m.write a 176 ks

/-- `n` consecutive Blocks from byte offset `a` on; `none` if a byte of them is undefined. -/
def Mem.readBlocks (m : Mem) (a : Nat) : Nat → Option (List Block)
  | 0 => some []
  | n + 1 =>
    match m.readBlock a, Mem.readBlocks m (a + 16) n with
    | some b, some bs => some (b :: bs)
    | _, _ => none

/-- Consecutive Blocks stored from byte offset `a` on. -/
def Mem.writeBlocks (m : Mem) (a : Nat) : List Block → Mem
  | [] => m
  | b :: bs => Mem.writeBlocks (m.writeBlock a b) (a + 16) bs

/-- `n` consecutive Pieces, of 256 Blocks each, from byte offset `a` on (R48); `none` if a byte of them is undefined. -/
def Mem.readPieces (m : Mem) (a : Nat) : Nat → Option (List Piece)
  | 0 => some []
  | n + 1 =>
    match m.readBlocks a 256, Mem.readPieces m (a + 4096) n with
    | some p, some ps => some (p :: ps)
    | _, _ => none

/-- Consecutive Pieces stored in the PIECE slots from byte offset `a` on, one every 4096 bytes (R48). -/
def Mem.writePieces (m : Mem) (a : Nat) : List Piece → Mem
  | [] => m
  | p :: ps => Mem.writePieces (m.writeBlocks a p) (a + 4096) ps

/-! ## Updates of the state -/

/-- The data windows become `m`. -/
def State.setMem (s : State) (m : Mem) : State := { s with mem := m }

/-- ITER <- v (R37). -/
def State.setIter (s : State) (v : Word) : State := { s with iter := v }

/-- BREADTH <- v (R38). -/
def State.setBreadth (s : State) (v : Word) : State := { s with breadth := v }

/-- IE <- b (R34). -/
def State.setIe (s : State) (b : Bool) : State := { s with ie := b }

/-- VOK <- b (R266). -/
def State.setVok (s : State) (b : Bool) : State := { s with vok := b }

/-- DONE <- 0 (R35). -/
def State.clearDone (s : State) : State := { s with done := false }

/-- Raising an error, the RPE's only exception (R141, R290, R294): ERR <- 1 and ERRCODE <- code. No mode, mask, stack or
program counter changes, for there is none, and control goes nowhere. -/
def State.reject (s : State) (e : ErrCode) : State := { s with err := true, errcode := e.code }

/-- Acknowledging an error, the nearest thing to a return (R35, R295): ERR <- 0 and ERRCODE <- 0. -/
def State.acknowledge (s : State) : State := { s with err := false, errcode := 0 }

/-- An accepted launch (R142): CUR <- d, BUSY <- 1, VOK <- 0. -/
def State.accept (s : State) (d : Word) : State := { s with cur := d, busy := true, vok := false }

/-- What every completion does after its Effect (R143): BUSY <- 0, DONE <- 1. -/
def State.finish (s : State) : State := { s with busy := false, done := true }

/-- The host port receives `w` as the answer to its HostRead (R80). -/
def State.answer (s : State) (w : Word) : State := { s with rdata := some w }

/-- One unspecified word has been drawn (U3). -/
def State.drawn (s : State) : State := { s with draws := s.draws + 1 }

/-- The host port receives this instance's next unspecified word, and the draw is counted (R55, U3; log entry 3). -/
def State.drawUnspecified (s : State) : State := (s.answer (Config.unspecifiedWord s.cfg.baseIndex s.draws)).drawn

/-- What remains to happen becomes `is`. -/
def State.setInputs (s : State) (is : List Input) : State := { s with inputs := is }

/-- The control state a reset establishes (R56, R331): IE, BUSY, DONE, ERR, VOK, ERRCODE 0, ITER 0, BREADTH 1. -/
def State.resetControl (s : State) : State :=
  { s with
    ie := false, busy := false, done := false, err := false, vok := false, errcode := 0, iter := 0, breadth := 1 }

/-! ## Completion -/

/-- A completion goes on with the input it read, or faults when a byte of it is undefined (R53, R147). -/
def needs {α : Type} (input : Option α) (k : α → Host.Outcome State Fault Refusal) : Host.Outcome State Fault Refusal :=
  match input with
  | some v => k v
  | none => .fault .undefinedInput

end Sys2Proof.Machine
end

