-- ==== Sys2Proof/Machine/Operands.lean ====
section
/-! DEFINITION. The address map of the host window, the operands a command names, and the bytes it reads and writes (R42 to R49, R82, R112, R146). -/

namespace Sys2Proof.Machine

/-! ## The address map (R82) -/

/-- Byte offset of KS_FWD (R42). -/
abbrev ksFwdBase : Nat := 0x100
/-- Byte offset of KS_INV (R43). -/
abbrev ksInvBase : Nat := 0x200
/-- Byte offset of IDENT (R44). -/
abbrev identBase : Nat := 0x300
/-- Byte offset of SEED (R45). -/
abbrev seedBase : Nat := 0x310
/-- Byte offset of IV[0] (R46). -/
abbrev ivBase : Nat := 0x400
/-- Byte offset of LANE[0] (R39). -/
abbrev laneBase : Nat := 0x500
/-- Byte offset of PROOF (R47). -/
abbrev proofBase : Nat := 0x600
/-- Byte offset of PIECE[0] (R48). -/
abbrev pieceBase : Nat := 0x10000
/-- The bytes of the host window: 128 KiB (R80). -/
abbrev windowBytes : Nat := 0x20000

/-- The data windows (R82). -/
inductive Window
  | ksFwd | ksInv | ident | seed | iv | lane | proof | piece
  deriving DecidableEq, Repr

/-- One data window's place in the host window. -/
structure Region where
  /-- Which window. -/
  window : Window
  /-- Its first byte offset. -/
  base : Nat
  /-- Its bytes. -/
  size : Nat
  deriving DecidableEq, Repr

/-- The data windows an instance has: IV, LANE and PIECE have slots 0 .. W − 1 only (R49, R82). -/
def dataMap (c : Config) : List Region :=
  [⟨.ksFwd, ksFwdBase, 176⟩, ⟨.ksInv, ksInvBase, 176⟩, ⟨.ident, identBase, 16⟩, ⟨.seed, seedBase, 16⟩,
   ⟨.iv, ivBase, 16 * c.width⟩, ⟨.lane, laneBase, 16 * c.width⟩, ⟨.proof, proofBase, 256⟩,
   ⟨.piece, pieceBase, 4096 * c.width⟩]

/-- `a` is one of the `size` byte offsets from `base` on. -/
def within (base size a : Nat) : Bool := decide (base ≤ a) && decide (a < base + size)

/-- A byte offset of a data window that the instance has. -/
def isData (c : Config) (a : Nat) : Bool := (dataMap c).any fun r => within r.base r.size a

/-- What a word of the host window is (R82). -/
inductive Target
  | id | caps | ctrl | status | cmd | iter | breadth
  /-- A word of a data window. -/
  | data
  /-- Reserved: reads as 0, writes are ignored (R32). -/
  | reserved
  deriving DecidableEq, Repr

/-- The word at a byte offset that is a multiple of 4 (R82). -/
def target (c : Config) (off : Nat) : Target :=
  match off with
  | 0x000 => .id
  | 0x004 => .caps
  | 0x008 => .ctrl
  | 0x00C => .status
  | 0x010 => .cmd
  | 0x014 => .iter
  | 0x018 => .breadth
  | _ => if isData c off then .data else .reserved

/-- The byte offset of a word address (R80). -/
def byteOffset (wa : BitVec 15) : Nat := 4 * wa.toNat

/-! ## Named operands -/

/-- KS_FWD (R42). -/
def State.ksFwd (s : State) : Option KeySchedule := s.mem.readSchedule ksFwdBase

/-- KS_INV (R43). -/
def State.ksInv (s : State) : Option KeySchedule := s.mem.readSchedule ksInvBase

/-- IDENT (R44). -/
def State.ident (s : State) : Option Block := s.mem.readBlock identBase

/-- SEED (R45). -/
def State.seed (s : State) : Option Block := s.mem.readBlock seedBase

/-- IV[j] (R46). -/
def State.iv (s : State) (j : Nat) : Option Block := s.mem.readBlock (ivBase + 16 * j)

/-- LANE[j] (R39). -/
def State.lane (s : State) (j : Nat) : Option Block := s.mem.readBlock (laneBase + 16 * j)

/-- Checkpoint k of PROOF (R47, R261). -/
def State.checkpoint (s : State) (k : Nat) : Option Block := s.mem.readBlock (proofBase + 16 * k)

/-- PIECE[j] (R48). -/
def State.piece (s : State) (j : Nat) : Option Piece := s.mem.readBlocks (pieceBase + 4096 * j) 256

/-- How many slots of IV, LANE and PIECE a command with count N works on: slots 0 .. N − 1, of which the instance has
those below W (R49, R112). A KSET may hold an N above W; a slot the instance lacks is a reserved offset, so it reads as 0
and drops what is written (R32). DEDUCED (log entry 6). unsafe -/
def slots (c : Config) (n : BitVec 4) : Nat := min n.toNat c.width

/-- LANE[0..N−1] (R200). -/
def State.lanes (s : State) (n : BitVec 4) : Option (List Block) := s.mem.readBlocks laneBase (slots s.cfg n)

/-- IV[0..K−1] (R236). -/
def State.ivs (s : State) (n : BitVec 4) : Option (List Block) := s.mem.readBlocks ivBase (slots s.cfg n)

/-- PIECE[0..K−1] (R236). -/
def State.pieces (s : State) (n : BitVec 4) : Option (List Piece) := s.mem.readPieces pieceBase (slots s.cfg n)

/-- Checkpoints FIRST .. LAST of PROOF (R266). -/
def State.checkpoints (s : State) (first last : BitVec 4) : Option (List Block) :=
  s.mem.readBlocks (proofBase + 16 * first.toNat) (last.toNat + 1 - first.toNat)

/-- What interval FIRST starts from: SEED if FIRST = 0, else checkpoint FIRST − 1 (R263, R266). -/
def State.predecessor (s : State) (first : BitVec 4) : Option Block :=
  if first.toNat = 0 then s.seed else s.checkpoint (first.toNat - 1)

/-- A = ITER as a count (R112: unsigned). -/
def State.rounds (s : State) : Nat := s.iter.toNat

/-- B = BREADTH as a count. -/
def State.passes (s : State) : Nat := s.breadth.toNat

/-- inner = ITER / V (R262); exact for every accepted command. -/
def State.inner (s : State) (v : BitVec 5) : Nat := s.iter.toNat / v.toNat

/-! ## Read and write sets -/

/-- The data-window bytes a command's Effect reads (the "reads" column of R112, restricted as R147 says). -/
def readSet (c : Config) (i : Instr) (a : Nat) : Bool :=
  match i with
  | .nop => false
  | .keygen => within identBase 16 a
  | .permFwd n => within ksFwdBase 176 a || within laneBase (16 * slots c n) a
  | .permInv n => within ksInvBase 176 a || within laneBase (16 * slots c n) a
  | .porEnc n => within ksFwdBase 176 a || within ivBase (16 * slots c n) a || within pieceBase (4096 * slots c n) a
  | .porDec n => within ksInvBase 176 a || within ivBase (16 * slots c n) a || within pieceBase (4096 * slots c n) a
  | .potProve _ => within ksFwdBase 176 a || within seedBase 16 a
  | .potVerify _ first last =>
    within ksInvBase 176 a || (first == 0 && within seedBase 16 a)
      || within (proofBase + 16 * (first.toNat - 1)) (16 * (last.toNat + 1 - (first.toNat - 1))) a

/-- The data-window bytes a command's Effect may write (R146). -/
def writeSet (c : Config) (i : Instr) (a : Nat) : Bool :=
  match i with
  | .nop => false
  | .keygen => within ksFwdBase 176 a || within ksInvBase 176 a
  | .permFwd n => within laneBase (16 * slots c n) a
  | .permInv n => within laneBase (16 * slots c n) a
  | .porEnc n => within pieceBase (4096 * slots c n) a
  | .porDec n => within pieceBase (4096 * slots c n) a
  | .potProve v => within proofBase (16 * v.toNat) a
  | .potVerify _ _ _ => false

end Sys2Proof.Machine
end

