-- ==== Sys2Proof/WellFormed.lean ====
section
/-! DEFINITION. Which field values are legal (R117), apart from what one configuration accepts (KSET, checked at launch). -/

namespace Sys2Proof

/-- The lane and interleave counts the architecture knows: {1, 4, 8, 12} (R117). -/
def legalCounts : List Nat := [1, 4, 8, 12]

/-- VSET, the legal checkpoint counts: {4, 8, 12, 16} (R7, R117). -/
def legalCheckpointCounts : List Nat := [4, 8, 12, 16]

/-- The field values of a command are legal (R117): N in {1,4,8,12}; V in {4,8,12,16}; FIRST ≤ LAST ≤ V − 1. -/
def Instr.wellFormed : Instr → Bool
  | .nop => true
  | .keygen => true
  | .permFwd n => legalCounts.contains n.toNat
  | .permInv n => legalCounts.contains n.toNat
  | .porEnc n => legalCounts.contains n.toNat
  | .porDec n => legalCounts.contains n.toNat
  | .potProve v => legalCheckpointCounts.contains v.toNat
  | .potVerify v first last =>
    legalCheckpointCounts.contains v.toNat && decide (first.toNat ≤ last.toNat) && decide (last.toNat + 1 ≤ v.toNat)

end Sys2Proof
end

