-- ==== Sys2Proof/Machine/Launch.lean ====
section
/-! DEFINITION. Launch: Check and its error codes in priority order, rejection and acceptance (R117, R140 to R144, R292). -/

namespace Sys2Proof.Machine

/-- N (R117): code 3 unless N is in {1,4,8,12}, then code 9 unless it is in KSET. -/
def countError (s : State) (n : BitVec 4) : Option ErrCode :=
  if !legalCounts.contains n.toNat then some .badCount
  else if !s.cfg.accepts n.toNat then some .unsupported
  else none

/-- V (R117): code 6 unless V is in {4,8,12,16}. -/
def vparError (v : BitVec 5) : Option ErrCode :=
  if !legalCheckpointCounts.contains v.toNat then some .badVpar else none

/-- FIRST and LAST (R117): code 7 unless FIRST ≤ LAST ≤ V − 1. -/
def rangeError (v : BitVec 5) (first last : BitVec 4) : Option ErrCode :=
  if first.toNat ≤ last.toNat ∧ last.toNat + 1 ≤ v.toNat then none else some .badRange

/-- ITER of the POR commands (R144): code 4 if ITER = 0. -/
def porIterError (s : State) : Option ErrCode := if s.rounds = 0 then some .badIter else none

/-- ITER of POT_PROVE (R144, R265 "Rejections"): code 4 if ITER = 0, ITER mod V ≠ 0 or ITER mod Q ≠ 0. So V = 12 with
ITER = 12 is accepted where Q = 12, with inner = 1, which is R265's smallest legal ITER for V = 12. R265's corner case "inner =
1 is possible only with Q = 1 and A = V" says otherwise of this one command and is not followed. DEDUCED (log entry 21).
unsafe -/
def proveIterError (s : State) (v : BitVec 5) : Option ErrCode :=
  if s.rounds = 0 ∨ s.rounds % v.toNat ≠ 0 ∨ s.rounds % s.cfg.quantum ≠ 0 then some .badIter else none

/-- ITER of POT_VERIFY (R144): code 4 if ITER = 0 or ITER mod V ≠ 0; Q is not checked (R266). -/
def verifyIterError (s : State) (v : BitVec 5) : Option ErrCode :=
  if s.rounds = 0 ∨ s.rounds % v.toNat ≠ 0 then some .badIter else none

/-- BREADTH of the POR commands (R144): code 5 if BREADTH = 0. -/
def breadthError (s : State) : Option ErrCode := if s.passes = 0 then some .badBreadth else none

/-- The rejections of each command after decoding, the first failing one named (R144; R150, R175, R200, R201, R236, R237,
R265, R266 "Rejections"). -/
def instrError (s : State) : Instr → Option ErrCode
  | .nop => none
  | .keygen => if s.cfg.hasKeygen then none else some .unsupported
  | .permFwd n => countError s n
  | .permInv n => countError s n
  | .porEnc n => (countError s n).or ((porIterError s).or (breadthError s))
  | .porDec n => (countError s n).or ((porIterError s).or (breadthError s))
  | .potProve v => (vparError v).or (proveIterError s v)
  | .potVerify v first last => (vparError v).or ((rangeError v first last).or (verifyIterError s v))

/-- `Check(d)` (R144): `none` to accept, else the first failing cause. -/
def check (s : State) (d : Word) : Option ErrCode :=
  match decode d with
  | .error .illegalOp => some .illegalOp
  | .error .badField => some .badField
  | .ok i => instrError s i

/-- `launch(d)` (R140): refused while a command runs, rejected with the code of Check, or accepted. -/
def launch (d : Word) (s : State) : State :=
  if s.busy then s.reject .busy
  else
    match check s d with
    | some e => s.reject e
    | none => s.accept d

/-- The command word `d` placed where the engine takes its next command from, and the engine's turn next: all that an
accepted launch does (R142: CUR <- d, BUSY <- 1, VOK <- 0), without the tests before it (R140: BUSY = 0, Check).
DESIGN CHOICE (log entry 8). safe -/
def State.loadCommand (s : State) (d : Word) : State := (s.accept d).setInputs (.engine :: s.inputs)

end Sys2Proof.Machine
end

