-- ==== Sys2Proof/Machine/Bus.lean ====
section
/-! DEFINITION. What reaches the instance from outside: host transactions, accesses a bus bridge offers, soft and hard reset (R32 to R38, R55, R80 to R87, R330, R331). -/

namespace Sys2Proof.Machine

/-- The word at byte offset `off` holds a byte of the running command's write set (R55, R146). -/
def inRunningWriteSet (s : State) (off : Nat) : Bool :=
  match decode s.cur with
  | .ok i => (List.range 4).any fun m => writeSet s.cfg i (off + m)
  | .error _ => false

/-- A host read of a data-window word (R53, R55): while BUSY = 1 a word of the running command's write set reads as a free
word, its own for each instance and draw (log entry 3); any other word reads as its bytes, and a word that holds an
undefined byte is a fault. DESIGN CHOICE (log entry 20): a word of the running command's write set that also holds an
undefined byte, for which R53, R297 and U1 say a fault and R55 and U3 a draw, reads as the free word. safe -/
def readData (off : Nat) (s : State) : Host.Outcome State Fault Refusal :=
  if s.busy && inRunningWriteSet s off then .next s.drawUnspecified
  else
    match s.mem.readWord off with
    | some w => .next (s.answer w)
    | none => .fault .undefinedRead

/-- HostRead(wa) (R80, R82). No read has a side effect on the instance (R86). -/
def hostRead (wa : BitVec 15) (s : State) : Host.Outcome State Fault Refusal :=
  match target s.cfg (byteOffset wa) with
  | .id => .next (s.answer idWord)
  | .caps => .next (s.answer s.cfg.capsWord)
  | .ctrl => .next (s.answer s.ctrlWord)
  | .status => .next (s.answer s.statusWord)
  | .cmd => .next (s.answer 0)
  | .iter => .next (s.answer s.iter)
  | .breadth => .next (s.answer s.breadth)
  | .data => readData (byteOffset wa) s
  | .reserved => .next (s.answer 0)

/-- The write set of a running command becomes undefined (R331); nothing changes while none runs. -/
def State.abandon (s : State) : State :=
  if s.busy then
    match decode s.cur with
    | .ok i => s.setMem (s.mem.undefine (writeSet s.cfg i))
    | .error _ => s
  else s

/-- `soft_reset()` (R331). -/
def State.softReset (s : State) : State := s.abandon.resetControl

/-- A hard reset (R330): the control state of R56 and every data-window byte undefined. CUR is unspecified and never read
while BUSY = 0, so the last word is kept, as U4 allows. What the host has received and what happens next are no state of
the instance and stay. -/
def State.hardReset (s : State) : State := (s.setMem []).resetControl

/-- A host write to CTRL (R34). -/
def writeCtrl (d : Word) (s : State) : State := if d.getLsbD 1 then s.softReset else s.setIe (d.getLsbD 0)

/-- A host write to STATUS (R35): d[1] = 1 clears DONE, then d[2] = 1 clears ERR and ERRCODE. -/
def writeStatus (d : Word) (s : State) : State :=
  let s1 := if d.getLsbD 1 then s.clearDone else s
  if d.getLsbD 2 then s1.acknowledge else s1

/-- A host write that is refused while BUSY = 1 (R55): nothing is stored, ERR <- 1, ERRCODE <- 8. -/
def State.whenIdle (s : State) (t : State) : State := if s.busy then s.reject .busy else t

/-- HostWrite(wa, d) (R80, R82). -/
def hostWrite (wa : BitVec 15) (d : Word) (s : State) : State :=
  match target s.cfg (byteOffset wa) with
  | .id => s
  | .caps => s
  | .ctrl => writeCtrl d s
  | .status => writeStatus d s
  | .cmd => launch d s
  | .iter => s.whenIdle (s.setIter d)
  | .breadth => s.whenIdle (s.setBreadth d)
  | .data => s.whenIdle (s.setMem (s.mem.writeWord (byteOffset wa) d))
  | .reserved => s

/-- One host bus transaction (R110). -/
def hostTransaction (t : HostTxn) (s : State) : Host.Outcome State Fault Refusal :=
  if t.write then .next (hostWrite t.wa t.d s) else hostRead t.wa s

/-- The transaction an access at a host physical address is, if the interface can express it: 4 bytes, aligned, inside the
window at RPE_BASE (R80, R84, R87). -/
def expressible (c : Config) (addr width : Nat) (data : Option Word) : Option HostTxn :=
  if width = 4 ∧ addr % 4 = 0 ∧ c.windowBase ≤ addr ∧ addr < c.windowBase + windowBytes then
    some { write := data.isSome, wa := BitVec.ofNat 15 ((addr - c.windowBase) / 4), d := data.getD 0 }
  else none

/-- An access a bus bridge offers (R84, R297, U17): the transaction it is, or a fault by name, never a guessed split. -/
def bridgeAccess (addr width : Nat) (data : Option Word) (s : State) : Host.Outcome State Fault Refusal :=
  match expressible s.cfg addr width data with
  | some t => hostTransaction t s
  | none => .fault .inexpressibleAccess

end Sys2Proof.Machine
end

