-- ==== Sys2Proof/Machine/Perm.lean ====
section
/-! DEFINITION. The permutation pair and the key expansion an instance has (R7, R170, R190), each chosen on its own: the default, or another of which only the laws are known. -/

namespace Sys2Proof.Machine

/-- The KEYEXP of an instance whose PERM is not the default (R170): the default, or any other function, for which
`Config.customPerm` gives a lawful pair. -/
def customPairKeyExp (k : KeyExpSel) : Block → KeySchedule × KeySchedule :=
  match k with
  | .aes128 => aesKeyExp
  | .custom m => Config.customKeyExp m

/-- The KEYEXP of an instance whose PERM is the default (R170): the default, or any other that meets R171. -/
def aesPairKeyExp (k : KeyExpSel) : Block → KeySchedule × KeySchedule :=
  match k with
  | .aes128 => aesKeyExp
  | .custom m =>
    match Config.customAesKeyExp m with
    | some e => e.keyExp
    | none => aesKeyExp

/-- KEYEXP (R170). -/
def keyExpand (p : CipherSel) (id : Block) : KeySchedule × KeySchedule :=
  match p.perm with
  | .aes128 => aesPairKeyExp p.keyExp id
  | .custom _ => customPairKeyExp p.keyExp id

/-- Fwd (R190), through which alone every forward command reaches the permutation. -/
def permFwdBlock (p : CipherSel) (ks : KeySchedule) (b : Block) : Block :=
  match p.perm with
  | .aes128 => aesFwd ks b
  | .custom n => (Config.customPerm (customPairKeyExp p.keyExp) n).fwd ks b

/-- Inv (R190), through which alone every inverse command reaches the permutation. -/
def permInvBlock (p : CipherSel) (ks : KeySchedule) (b : Block) : Block :=
  match p.perm with
  | .aes128 => aesInv ks b
  | .custom n => (Config.customPerm (customPairKeyExp p.keyExp) n).inv ks b

/-- Fwd^n(ks, b) (R13). -/
def fwdIter (p : CipherSel) (ks : KeySchedule) (n : Nat) (b : Block) : Block := (permFwdBlock p ks)^[n] b

/-- Inv^n(ks, b) (R13). -/
def invIter (p : CipherSel) (ks : KeySchedule) (n : Nat) (b : Block) : Block := (permInvBlock p ks)^[n] b

end Sys2Proof.Machine
end

