-- ==== Sys2Proof/Machine/Keygen.lean ====
section
/-! DEFINITION. The completion of KEYGEN (R175). -/

namespace Sys2Proof.Machine

/-- Both schedule banks written (R175): KS_FWD <- F, KS_INV <- I. -/
def State.loadSchedules (s : State) (fi : KeySchedule × KeySchedule) : State :=
  s.setMem ((s.mem.writeSchedule ksFwdBase fi.1).writeSchedule ksInvBase fi.2)

/-- KEYGEN (R175): (F, I) <- KEYEXP(IDENT); KS_FWD <- F; KS_INV <- I. -/
def execKeygen (s : State) : Host.Outcome State Fault Refusal :=
  needs s.ident fun id => .next (s.loadSchedules (keyExpand s.cfg.cipher id)).finish

end Sys2Proof.Machine
end

