-- ==== Sys2Proof/Machine/Nop.lean ====
section
/-! DEFINITION. The completion of NOP (R150). -/

namespace Sys2Proof.Machine

/-- NOP (R150): the Effect is empty; completion sets BUSY = 0 and DONE = 1 (R143). -/
def execNop (s : State) : Host.Outcome State Fault Refusal := .next s.finish

end Sys2Proof.Machine
end

