-- ==== Sys2Proof/Machine/Pipeline.lean ====
section
/-! DEFINITION. The completion of the round-pipeline commands PERM_FWD and PERM_INV (R200 to R203). -/

namespace Sys2Proof.Machine

/-- LANE[0], LANE[1], … <- the Blocks of the list (R200). -/
def State.setLanes (s : State) (bs : List Block) : State := s.setMem (s.mem.writeBlocks laneBase bs)

/-- PERM_FWD (R200): LANE[j] <- Fwd^ITER(KS_FWD, LANE[j]) for j in 0..N−1. -/
def execPermFwd (n : BitVec 4) (s : State) : Host.Outcome State Fault Refusal :=
  needs s.ksFwd fun ks => needs (s.lanes n) fun bs =>
    .next (s.setLanes (bs.map (fwdIter s.cfg.cipher ks s.rounds))).finish

/-- PERM_INV (R201): LANE[j] <- Inv^ITER(KS_INV, LANE[j]) for j in 0..N−1. -/
def execPermInv (n : BitVec 4) (s : State) : Host.Outcome State Fault Refusal :=
  needs s.ksInv fun ks => needs (s.lanes n) fun bs =>
    .next (s.setLanes (bs.map (invIter s.cfg.cipher ks s.rounds))).finish

end Sys2Proof.Machine
end

