-- ==== Sys2Proof/Machine/Por.lean ====
section
/-! DEFINITION. Proof-of-Replication: the pass functions over any block function, and the completion of POR_ENC and POR_DEC (43_por.md, R230 to R237). -/

namespace Sys2Proof.Machine

/-- EncPass (R230), with `f` = Fwd^A(F, ·): block i is `f` of plaintext block i ⊕ the ciphertext block before it, or the
seed for block 0. -/
def encPass (f : Block → Block) : Block → Piece → Piece
  | _, [] => []
  | v, x :: xs => f (x ^^^ v) :: encPass f (f (x ^^^ v)) xs

/-- blk(X, 255) of a Piece of 256 Blocks: its last Block (R12). -/
def lastBlock (x : Piece) : Block := x.getLastD 0

/-- Encode (R231): B passes, each seeded by the last block of the one before. -/
def porEncode (f : Block → Block) : Nat → Block → Piece → Piece
  | 0, _, x => x
  | b + 1, v, x => porEncode f b (lastBlock (encPass f v x)) (encPass f v x)

/-- DecPass (R232), with `g` = Inv^A(I, ·): block i is `g` of ciphertext block i ⊕ the original ciphertext block before it,
or the seed for block 0. -/
def decPass (g : Block → Block) : Block → Piece → Piece
  | _, [] => []
  | v, y :: ys => (g y ^^^ v) :: decPass g y ys

/-- RecoverSeed (R233): Inv^A(I, blk(Y, 255)) ⊕ blk(Y, 254). -/
def recoverSeed (g : Block → Block) (y : Piece) : Block := g (lastBlock y) ^^^ lastBlock y.dropLast

/-- Decode (R234): passes B down to 1; pass 1 takes the caller's IV, every other the seed it recovers. -/
def porDecode (g : Block → Block) : Nat → Block → Piece → Piece
  | 0, _, x => x
  | 1, iv, x => decPass g iv x
  | b + 2, iv, x => porDecode g (b + 1) iv (decPass g (recoverSeed g x) x)

/-- PIECE[0], PIECE[1], … <- the Pieces of the list (R236). -/
def State.setPieces (s : State) (ps : List Piece) : State := s.setMem (s.mem.writePieces pieceBase ps)

/-- POR_ENC (R236): PIECE[j] <- Encode(KS_FWD, ITER, BREADTH, PIECE[j], IV[j]) for j in 0..K−1. -/
def execPorEnc (n : BitVec 4) (s : State) : Host.Outcome State Fault Refusal :=
  needs s.ksFwd fun ks => needs (s.ivs n) fun vs => needs (s.pieces n) fun ps =>
    .next (s.setPieces (List.zipWith (porEncode (fwdIter s.cfg.cipher ks s.rounds) s.passes) vs ps)).finish

/-- POR_DEC (R237): PIECE[j] <- Decode(KS_INV, ITER, BREADTH, PIECE[j], IV[j]) for j in 0..K−1. -/
def execPorDec (n : BitVec 4) (s : State) : Host.Outcome State Fault Refusal :=
  needs s.ksInv fun ks => needs (s.ivs n) fun vs => needs (s.pieces n) fun ps =>
    .next (s.setPieces (List.zipWith (porDecode (invIter s.cfg.cipher ks s.rounds) s.passes) vs ps)).finish

end Sys2Proof.Machine
end

