-- ==== Sys2Proof/Machine/Pot.lean ====
section
/-! DEFINITION. Proof-of-Time: the checkpoint chain and its interval check over any block function, and the completion of POT_PROVE and POT_VERIFY (44_pot.md, R260 to R266). -/

namespace Sys2Proof.Machine

/-- Chain (R260), with `f` = Fwd^inner(F, ·): cp[k] = f(cp[k−1]), cp[−1] = the seed, for k in 0..V−1. -/
def potChain (f : Block → Block) : Block → Nat → List Block
  | _, 0 => []
  | c, v + 1 => f c :: potChain f (f c) v

/-- The AND of the interval checks of R263 over consecutive checkpoints, the first one's predecessor given (R264), with
`g` = Inv^inner(I, ·). -/
def intervalsOk (g : Block → Block) : Block → List Block → Bool
  | _, [] => true
  | prev, c :: cs => decide (g c = prev) && intervalsOk g c cs

/-- PROOF checkpoints 0, 1, … <- the Blocks of the list (R265). -/
def State.setCheckpoints (s : State) (cps : List Block) : State := s.setMem (s.mem.writeBlocks proofBase cps)

/-- POT_PROVE (R265): PROOF[0 .. 16V−1] <- Chain(KS_FWD, SEED, V, ITER / V). -/
def execPotProve (v : BitVec 5) (s : State) : Host.Outcome State Fault Refusal :=
  needs s.ksFwd fun ks => needs s.seed fun seed =>
    .next (s.setCheckpoints (potChain (fwdIter s.cfg.cipher ks (s.inner v)) seed v.toNat)).finish

/-- POT_VERIFY (R266): VOK <- VerifyRange over FIRST .. LAST, reading SEED only if FIRST = 0 and checkpoints
max(FIRST − 1, 0) .. LAST only. -/
def execPotVerify (v : BitVec 5) (first last : BitVec 4) (s : State) : Host.Outcome State Fault Refusal :=
  needs s.ksInv fun ks => needs (s.predecessor first) fun prev => needs (s.checkpoints first last) fun cps =>
    .next (s.setVok (intervalsOk (invIter s.cfg.cipher ks (s.inner v)) prev cps)).finish

end Sys2Proof.Machine
end

