-- ==== Sys2Proof/Machine/Dispatch.lean ====
section
/-! DEFINITION. One arm per command: its completion, Effect and the flags of R143. -/

namespace Sys2Proof.Machine

def exec (i : Instr) (s : State) : Host.Outcome State Fault Refusal :=
  match i with
  | .nop => Sys2Proof.Machine.execNop s
  | .keygen => Sys2Proof.Machine.execKeygen s
  | .permFwd n => Sys2Proof.Machine.execPermFwd n s
  | .permInv n => Sys2Proof.Machine.execPermInv n s
  | .porEnc n => Sys2Proof.Machine.execPorEnc n s
  | .porDec n => Sys2Proof.Machine.execPorDec n s
  | .potProve v => Sys2Proof.Machine.execPotProve v s
  | .potVerify v first last => Sys2Proof.Machine.execPotVerify v first last s

end Sys2Proof.Machine
end

