-- ==== Sys2Proof/Machine/Engine.lean ====
section
/-! DEFINITION. The two agents' turns (R89): the engine's completion step (R143), and what the next input does. -/

namespace Sys2Proof.Machine

/-- The engine's turn (R143): enabled exactly when BUSY = 1, it completes the command in CUR; with BUSY = 0 nothing
happens. -/
def engineTurn (s : State) : Host.Outcome State Fault Refusal :=
  if s.busy then
    match decode s.cur with
    | .ok i => exec i s
    | .error e => .refused (.undecodableCommand e)
  else .next s

/-- The next input taken. When no input is left, the engine has the turn: a launched command is eventually completed (R148,
R351; DESIGN CHOICE, log entry 4). -/
def takeTurn (s : State) : Host.Outcome State Fault Refusal :=
  match s.inputs with
  | [] => engineTurn s
  | .engine :: rest => engineTurn (s.setInputs rest)
  | .host t :: rest => hostTransaction t (s.setInputs rest)
  | .access addr width data :: rest => bridgeAccess addr width data (s.setInputs rest)
  | .hardReset :: rest => .next (s.setInputs rest).hardReset

end Sys2Proof.Machine
end

