-- ==== Sys2Proof/Machine/Step.lean ====
section
/-! DEFINITION. One step of the machine, and where its next command is taken from. -/

namespace Sys2Proof.Machine

/-- One step: one host transaction, one engine turn or one reset (R89). -/
def step (s : State) : Host.Outcome State Fault Refusal := takeTurn s

/-- `s` with the command whose bits are `w` where the engine takes its next command from, and the engine's turn next
(log entry 8). Every command is one 32-bit word (R118). -/
def State.withFetchWord (s : State) (nbits w : Nat) : State := s.loadCommand (BitVec.ofNat 32 (w % 2 ^ nbits))

end Sys2Proof.Machine
end

