-- ==== Sys2Proof/Machine/HostProgram.lean ====
section
/-! DEFINITION. The assembler and the host-program statements as lists of inputs (R119 to R121). -/

namespace Sys2Proof.Machine

/-- A command as the assembler reads it, its operands unbounded numbers (R119, R120). -/
inductive AsmCommand
  | nop
  | keygen
  | permFwd (n : Nat)
  | permInv (n : Nat)
  | porEnc (k : Nat)
  | porDec (k : Nat)
  | potProve (v : Nat)
  | potVerify (v first last : Nat)
  /-- The pseudo-instruction `pot.verify V` (R120). -/
  | potVerifyAll (v : Nat)
  deriving DecidableEq, Repr

/-- An operand that fits its field; the assembler rejects any other (R119). -/
def fits (bits n : Nat) : Option (BitVec bits) := if n < 2 ^ bits then some (BitVec.ofNat bits n) else none

/-- `pot.verify V, FIRST, LAST` with operands that fit (R119). -/
def assemblePotVerify (v first last : Nat) : Option Instr :=
  match fits 5 v, fits 4 first, fits 4 last with
  | some v, some f, some l => some (.potVerify v f l)
  | _, _, _ => none

/-- The assembler (R119, R120). Operands that fit but are illegal pass through to the word. -/
def assemble : AsmCommand → Option Instr
  | .nop => some .nop
  | .keygen => some .keygen
  | .permFwd n => (fits 4 n).map .permFwd
  | .permInv n => (fits 4 n).map .permInv
  | .porEnc k => (fits 4 k).map .porEnc
  | .porDec k => (fits 4 k).map .porDec
  | .potProve v => (fits 5 v).map .potProve
  | .potVerify v first last => assemblePotVerify v first last
  | .potVerifyAll v => if v = 0 then none else assemblePotVerify v 0 (v - 1)

/-- A statement of a host program (R121). -/
inductive Stmt
  | wr (off val : Nat)
  | rd (off : Nat)
  | cmd (c : AsmCommand)
  | clr
  /-- `wait`, in a schedule where `polls` reads of STATUS still see BUSY = 1 and then the command completes (R121, R148). -/
  | wait (polls : Nat)
  | ldblk (off : Nat) (b : Block)
  | fill (off count val : Nat)
  | rdblk (off : Nat)
  deriving DecidableEq, Repr

/-- `HostWrite(OFF/4, VAL)`; offsets are multiples of 4 (R121). -/
def writeInput (off val : Nat) : Option Input :=
  if off % 4 = 0 ∧ off < windowBytes ∧ val < 2 ^ 32 then
    some (.host { write := true, wa := BitVec.ofNat 15 (off / 4), d := BitVec.ofNat 32 val })
  else none

/-- `HostRead(OFF/4)` (R121). -/
def readInput (off : Nat) : Option Input :=
  if off % 4 = 0 ∧ off < windowBytes then some (.host { write := false, wa := BitVec.ofNat 15 (off / 4), d := 0 }) else none

/-- The inputs one statement stands for (R121); `none` where its numbers do not fit. -/
def Stmt.expand : Stmt → Option (List Input)
  | .wr off val => (writeInput off val).map ([·])
  | .rd off => (readInput off).map ([·])
  | .cmd c =>
    match assemble c with
    | some i => (writeInput 0x010 (encode i).toNat).map ([·])
    | none => none
  | .clr => (writeInput 0x00C 0x6).map ([·])
  | .wait polls => (readInput 0x00C).map fun r => List.replicate polls r ++ [.engine, r]
  | .ldblk off b => (List.range 4).mapM fun k => writeInput (off + 4 * k) (b.extractLsb' (32 * k) 32).toNat
  | .fill off count val => (List.range count).mapM fun k => writeInput (off + 4 * k) val
  | .rdblk off => (List.range 4).mapM fun k => readInput (off + 4 * k)

/-- The inputs of a host program, in program order (R89, R121). -/
def expandProgram (p : List Stmt) : Option (List Input) := (p.mapM Stmt.expand).map List.flatten

/-- `s` with a host program as what happens next. -/
def State.withProgram (s : State) (p : List Stmt) : Option State := (expandProgram p).map fun is => s.setInputs is

end Sys2Proof.Machine
end

