-- ==== Sys2Proof/Machine/Instances.lean ====
section
/-! DEFINITION. Several independent instances driven by one host: disjoint windows, one program order of the host's accesses, each engine on its own (R10, R89, R96, R305). -/

namespace Sys2Proof.Machine

/-- One thing that happens next in a system (log entry 16). -/
inductive SystemInput
  /-- The host performs its next access, at a host physical address: a store when it carries data. The host tells the
  instances apart by RPE_BASE (R305), so the address says which one the access reaches. -/
  | bus (addr : Nat) (width : Nat) (data : Option Word)
  /-- The engine of instance `k` gets its turn (R143). -/
  | engine (k : Nat)
  /-- Instance `k` has its own hard reset (R305, R330). -/
  | hardReset (k : Nat)
  deriving DecidableEq, Repr

/-- A system of instances and what happens next in it. The host's accesses stand in `inputs` in the host's program order,
the only order between transactions to different instances (R96); the turns of the engines stand between them anywhere
(R89). The instances' own lists of inputs are not used. -/
structure System where
  /-- The instances, each with its own window, IRQ line and state; they share nothing (R96, R305). -/
  members : List State
  /-- What happens next, in order. The model's own, as `State.inputs` is (log entries 4, 16). -/
  inputs : List SystemInput
  deriving DecidableEq, Repr

/-- The members' windows are disjoint (R96): they are 0x20000 bytes each at multiples of 0x20000 (R80, R87), so disjoint
exactly when no two have the same place. -/
abbrev System.disjoint (sys : System) : Prop := sys.members.Pairwise fun x y => x.cfg.baseIndex ≠ y.cfg.baseIndex

/-- The system right after the hard resets of its instances (R56); `none` for configurations whose windows are not
disjoint, which make no system (R96). -/
def System.reset (cs : List Config) : Option System :=
  let sys : System := { members := cs.map State.resetWith, inputs := [] }
  if sys.disjoint then some sys else none

/-- The host physical address `addr` lies in this instance's window (R80, R87). -/
def State.owns (s : State) (addr : Nat) : Bool := within s.cfg.windowBase windowBytes addr

/-- The instance an address belongs to: with disjoint windows there is at most one (R96). -/
def System.owner (sys : System) (addr : Nat) : Option Nat := sys.members.findIdx? fun s => s.owns addr

/-- `i` happens to instance `k` and to no other (R96). An instance that is not there takes no step. -/
def stepInstance (sys : System) (k : Nat) (i : Input) : Host.Outcome System Fault Refusal :=
  match sys.members[k]? with
  | none => .next sys
  | some s =>
    match step (s.setInputs (i :: s.inputs)) with
    | .next t => .next { sys with members := sys.members.set k t }
    | .fault r => .fault r
    | .refused r => .refused r

/-- One step of a system (R89, R96). An access outside every window reaches no RPE, which cannot express it (R84, U17).
With no input left, the first instance that runs a command has the turn of its engine, so that each is eventually
completed (R148, R351). DESIGN CHOICE (log entry 16). -/
def stepSystem (sys : System) : Host.Outcome System Fault Refusal :=
  match sys.inputs with
  | [] =>
    match sys.members.findIdx? State.busy with
    | some k => stepInstance sys k .engine
    | none => .next sys
  | .bus addr width data :: rest =>
    match sys.owner addr with
    | some k => stepInstance { sys with inputs := rest } k (.access addr width data)
    | none => .fault .inexpressibleAccess
  | .engine k :: rest => stepInstance { sys with inputs := rest } k .engine
  | .hardReset k :: rest => stepInstance { sys with inputs := rest } k .hardReset

/-- The IRQ lines of a system, one per instance (R305). -/
def irqLines (sys : System) : List Bool := sys.members.map State.irq

end Sys2Proof.Machine
end

