-- ==== Sys2Proof/Safety.lean ====
section
/-! DEFINITION. What every reachable state satisfies, and what a run without a fault is. -/

namespace Sys2Proof.Machine

/-- What holds in every state an instance can be in. -/
structure State.Inv (s : State) : Prop where
  /-- Memory keeps its canonical form. -/
  memWf : s.mem.wf
  /-- Every defined byte lies in a data window the instance has (R49, R82). -/
  memData : ∀ c ∈ s.mem, isData s.cfg c.1 = true
  /-- ERRCODE is 0 exactly while ERR = 0 (R35, R290). -/
  errcodeZero : s.errcode = 0 ↔ s.err = false
  /-- ERRCODE values 10 .. 15 are never written (R290). -/
  errcodeKnown : s.errcode.toNat ≤ 9
  /-- VOK reads 0 while a command runs (R341). -/
  runningVok : s.busy = true → s.vok = false
  /-- The running command passes Check in the state as it stands (R94, R142). -/
  runningChecked : s.busy = true → check s s.cur = none

/-- Every byte that the running command reads is defined (R147). -/
def State.InputsDefined (s : State) : Prop :=
  ∀ i, decode s.cur = .ok i → ∀ a, readSet s.cfg i a = true → s.mem.get a ≠ none

/-- `t` is what a completion leaves of `s` when its only output is memory (R143): BUSY = 0, DONE = 1, every byte outside
`stored` as before, and all the rest of the state unchanged. -/
def State.CompletedFrom (t s : State) (stored : Nat → Bool) : Prop :=
  t = { s with mem := t.mem, busy := false, done := true } ∧ ∀ a, stored a = false → t.mem.get a = s.mem.get a

/-- A run of `k` steps from `s` meets no fault and no refusal. -/
def State.RunsSafely (s : State) (k : Nat) : Prop := ∃ t, Host.Core.run Sys2Proof.core k s = .next t

end Sys2Proof.Machine
end

