-- ==== Sys2Proof/Certificates/Slice0/Obligations.lean ====
section
/-! DEFINITION. What the model is to be proved to say, from the numbered rules of spec/. -/

open Sys2Proof Sys2Proof.Machine

/-! ## Encoding (30_encoding.md) -/

/-- Every command, every operand at every value its field admits, decodes from its own word (R113, R114). -/
def Obligations.DecodeOfEncode : Prop := ∀ i : Instr, decode (encode i) = .ok i

/-- A word that decodes to a command is that command's word: no two words mean the same, and no bit is ignored (R113, R116). -/
def Obligations.EncodeOfDecode : Prop := ∀ (d : Word) (i : Instr), decode d = .ok i → encode i = d

/-- The decoder is total and refuses by name (R113): OP ≥ 8 is the one cause of `illegalOp`, and a word of a legal OP is
`badField` exactly when it matches no row of the opcode map. -/
def Obligations.DecoderRefusesByOpcodeMap : Prop :=
  ∀ d : Word,
    (decode d = .error .illegalOp ↔ 8 ≤ (d.extractLsb' 0 4).toNat) ∧
    (decode d = .error .badField ↔
      (d.extractLsb' 0 4).toNat < 8 ∧ ∀ r ∈ opcodeMap, d &&& r.mask ≠ r.bits)

/-- The worked encodings of R119, the pseudo-instruction's word of R120 and the two words without operands. -/
def Obligations.WorkedEncodingsDecode : Prop :=
  decode 0x00000000 = .ok .nop ∧ decode 0x00000001 = .ok .keygen ∧ decode 0x00000402 = .ok (.permFwd 4) ∧
  decode 0x00000C04 = .ok (.porEnc 12) ∧ decode 0x00100006 = .ok (.potProve 16) ∧
  decode 0xF0100007 = .ok (.potVerify 16 0 15) ∧ decode 0x21040007 = .ok (.potVerify 4 1 2)

/-- The assembler's words (R119): the fields at the places the table gives, for every operand that fits its field, and a
rejection for every operand that does not. -/
def Obligations.AssemblerWords : Prop :=
  (assemble .nop).map encode = some 0x00000000 ∧ (assemble .keygen).map encode = some 0x00000001 ∧
  (∀ n, (assemble (.permFwd n)).map encode = if n < 16 then some (0x00000002 ||| (BitVec.ofNat 32 n <<< 8)) else none) ∧
  (∀ n, (assemble (.permInv n)).map encode = if n < 16 then some (0x00000003 ||| (BitVec.ofNat 32 n <<< 8)) else none) ∧
  (∀ k, (assemble (.porEnc k)).map encode = if k < 16 then some (0x00000004 ||| (BitVec.ofNat 32 k <<< 8)) else none) ∧
  (∀ k, (assemble (.porDec k)).map encode = if k < 16 then some (0x00000005 ||| (BitVec.ofNat 32 k <<< 8)) else none) ∧
  (∀ v, (assemble (.potProve v)).map encode = if v < 32 then some (0x00000006 ||| (BitVec.ofNat 32 v <<< 16)) else none) ∧
  (∀ v f l, (assemble (.potVerify v f l)).map encode =
    if v < 32 ∧ f < 16 ∧ l < 16 then
      some (0x00000007 ||| (BitVec.ofNat 32 v <<< 16) ||| (BitVec.ofNat 32 f <<< 24) ||| (BitVec.ofNat 32 l <<< 28))
    else none)

/-! ## Launch (40_command_lifecycle.md) -/

/-- CMD (R36) and launch (R140): CMD reads 0, and a host write of `d` to it is the pseudocode of R140. -/
def Obligations.LaunchPseudocode : Prop :=
  ∀ s : State,
    hostRead 4 s = .next { s with rdata := some 0 } ∧
    ∀ d : Word, hostWrite 4 d s =
      if s.busy = true then { s with err := true, errcode := 8 }
      else
        match check s d with
        | some e => { s with err := true, errcode := e.code }
        | none => { s with cur := d, busy := true, vok := false }

/-- `Check(d)` is the chain of R144, read off the raw bits of the word: the first failing test names the code, 0 accepts. -/
def Obligations.CheckIsThePriorityChain : Prop :=
  ∀ (s : State) (d : Word),
    ((check s d).map ErrCode.code).getD 0 =
      (let op := (d.extractLsb' 0 4).toNat
       let n := (d.extractLsb' 8 4).toNat
       let v := (d.extractLsb' 16 5).toNat
       let first := (d.extractLsb' 24 4).toNat
       let last := (d.extractLsb' 28 4).toNat
       let iter := s.iter.toNat
       if op ≥ 8 then 1
       else if
         d &&& ([0xFFFFFFFF, 0xFFFFFFFF, 0xFFFFF0FF, 0xFFFFF0FF, 0xFFFFF0FF, 0xFFFFF0FF, 0xFFE0FFFF, 0x00E0FFFF].getD op 0)
           &&& 0xFFFFFFF0 ≠ (0 : Word) then 2
       else if op = 1 ∧ s.cfg.hasKeygen = false then 9
       else if 2 ≤ op ∧ op ≤ 5 ∧ ¬(n = 1 ∨ n = 4 ∨ n = 8 ∨ n = 12) then 3
       else if 2 ≤ op ∧ op ≤ 5 ∧ s.cfg.accepts n = false then 9
       else if 6 ≤ op ∧ ¬(v = 4 ∨ v = 8 ∨ v = 12 ∨ v = 16) then 6
       else if op = 7 ∧ ¬(first ≤ last ∧ last ≤ v - 1) then 7
       else if (op = 4 ∨ op = 5) ∧ iter = 0 then 4
       else if op = 6 ∧ (iter = 0 ∨ iter % v ≠ 0 ∨ iter % s.cfg.quantum ≠ 0) then 4
       else if op = 7 ∧ (iter = 0 ∨ iter % v ≠ 0) then 4
       else if (op = 4 ∨ op = 5) ∧ s.breadth.toNat = 0 then 5
       else 0)

/-- Words that are no command, written to CMD while BUSY = 0: an illegal opcode is rejected with ERRCODE 1 whatever the other
bits are (R115), a reserved bit or a field the opcode does not use with ERRCODE 2 (R116), and nothing else changes; and no
word but 0x00000000 is NOP. -/
def Obligations.MalformedWordsRejected : Prop :=
  (∀ (d : Word) (s : State), s.busy = false → 8 ≤ (d.extractLsb' 0 4).toNat →
    hostWrite 4 d s = { s with err := true, errcode := 1 }) ∧
  (∀ (d : Word) (s : State), s.busy = false → (d.extractLsb' 0 4).toNat < 8 →
    (d &&& 0x00E0F0F0 ≠ 0 ∨
      ((d.extractLsb' 0 4).toNat ∉ [2, 3, 4, 5] ∧ d &&& 0x00000F00 ≠ 0) ∨
      ((d.extractLsb' 0 4).toNat ∉ [6, 7] ∧ d &&& 0x001F0000 ≠ 0) ∨
      ((d.extractLsb' 0 4).toNat ≠ 7 ∧ d &&& 0xFF000000 ≠ 0)) →
    hostWrite 4 d s = { s with err := true, errcode := 2 }) ∧
  ∀ d : Word, decode d = .ok .nop → d = 0

/-! ## Completion of each command -/

/-- A step in which the engine has the turn (R143): with BUSY = 1 it is `exec` of the command CUR decodes to, on the state
with that turn taken off. Two clauses are the model's choices: that a turn with BUSY = 0 is a step that changes nothing (log
entry 18), and that with no input left the engine has the turn (log entry 4). -/
def Obligations.StepRunsDecodedCommand : Prop :=
  ∀ (s : State) (rest : List Input), (s.inputs = .engine :: rest ∨ (s.inputs = [] ∧ rest = [])) →
    (∀ i, s.busy = true → decode s.cur = .ok i → step s = exec i { s with inputs := rest }) ∧
    (s.busy = false → step s = .next { s with inputs := rest })

/-- NOP (R150): it reads nothing and completes in every state; BUSY = 0, DONE = 1, and nothing else changes. -/
def Obligations.NopCompletes : Prop :=
  ∀ s : State, exec .nop s = .next { s with busy := false, done := true }

/-- KEYGEN (R175) completes whenever IDENT is defined: KS_FWD and KS_INV hold KEYEXP(IDENT), and no other byte changes. -/
def Obligations.KeygenCompletes : Prop :=
  ∀ (s : State) (id : Block), s.ident = some id →
    ∃ t, exec .keygen s = .next t ∧
      t.ksFwd = some (keyExpand s.cfg.cipher id).1 ∧ t.ksInv = some (keyExpand s.cfg.cipher id).2 ∧
      t.CompletedFrom s fun a => within 0x100 176 a || within 0x200 176 a

/-- PERM_FWD (R200) completes whenever KS_FWD and the lanes it names are defined: LANE[j] <- Fwd^ITER(KS_FWD, LANE[j]) for
each of them, and no other byte changes. The lanes are 0 .. N − 1; of an N above W, those the instance has (log entry 6). -/
def Obligations.PermFwdCompletes : Prop :=
  ∀ (s : State) (n : BitVec 4) (ks : KeySchedule) (b : Nat → Block), s.ksFwd = some ks →
    (∀ j < min n.toNat s.cfg.width, s.lane j = some (b j)) →
    ∃ t, exec (.permFwd n) s = .next t ∧
      (∀ j < min n.toNat s.cfg.width, t.lane j = some ((permFwdBlock s.cfg.cipher ks)^[s.iter.toNat] (b j))) ∧
      t.CompletedFrom s (within 0x500 (16 * min n.toNat s.cfg.width))

/-- PERM_INV (R201) completes whenever KS_INV and the lanes it names are defined: LANE[j] <- Inv^ITER(KS_INV, LANE[j]), and
no other byte changes. An N above W: as for PERM_FWD (log entry 6). -/
def Obligations.PermInvCompletes : Prop :=
  ∀ (s : State) (n : BitVec 4) (ks : KeySchedule) (b : Nat → Block), s.ksInv = some ks →
    (∀ j < min n.toNat s.cfg.width, s.lane j = some (b j)) →
    ∃ t, exec (.permInv n) s = .next t ∧
      (∀ j < min n.toNat s.cfg.width, t.lane j = some ((permInvBlock s.cfg.cipher ks)^[s.iter.toNat] (b j))) ∧
      t.CompletedFrom s (within 0x500 (16 * min n.toNat s.cfg.width))

/-- POR_ENC (R236) completes whenever KS_FWD and the IVs and pieces it names are defined:
PIECE[j] <- Encode(KS_FWD, ITER, BREADTH, PIECE[j], IV[j]), and no other byte changes, so the IVs do not (R242). Encode is
BREADTH passes chained end to end (R231): of any pieces x 0, x 1, … that start with PIECE[j] and where x (q + 1) is x q after
one EncPass, seeded by IV[j] for the first pass and by block 255 of x q for every later one, the result is x BREADTH. A K
above W: as for PERM_FWD (log entry 6). -/
def Obligations.PorEncCompletes : Prop :=
  ∀ (s : State) (n : BitVec 4) (ks : KeySchedule) (v : Nat → Block) (p : Nat → Piece), s.ksFwd = some ks →
    (∀ j < min n.toNat s.cfg.width, s.iv j = some (v j) ∧ s.piece j = some (p j)) →
    ∃ t, exec (.porEnc n) s = .next t ∧
      (∀ j < min n.toNat s.cfg.width,
        t.piece j = some (porEncode ((permFwdBlock s.cfg.cipher ks)^[s.iter.toNat]) s.breadth.toNat (v j) (p j))) ∧
      (∀ j < min n.toNat s.cfg.width, ∀ x : Nat → Piece, x 0 = p j →
        (∀ q < s.breadth.toNat,
          x (q + 1) =
            encPass ((permFwdBlock s.cfg.cipher ks)^[s.iter.toNat]) (if q = 0 then v j else (x q).getD 255 0) (x q)) →
        t.piece j = some (x s.breadth.toNat)) ∧
      t.CompletedFrom s (within 0x10000 (4096 * min n.toNat s.cfg.width))

/-- POR_DEC (R237) completes whenever KS_INV and the IVs and pieces it names are defined:
PIECE[j] <- Decode(KS_INV, ITER, BREADTH, PIECE[j], IV[j]), and no other byte changes. Decode is BREADTH inverse passes
(R234): of any pieces x 0, x 1, … that start with PIECE[j] and where x (q + 1) is x q after one DecPass, seeded by IV[j] for
the last one undone and by Inv^A(block 255 of x q) ⊕ block 254 of x q for every other (R233), the result is x BREADTH. A K
above W: as for PERM_FWD (log entry 6). -/
def Obligations.PorDecCompletes : Prop :=
  ∀ (s : State) (n : BitVec 4) (ks : KeySchedule) (v : Nat → Block) (p : Nat → Piece), s.ksInv = some ks →
    (∀ j < min n.toNat s.cfg.width, s.iv j = some (v j) ∧ s.piece j = some (p j)) →
    ∃ t, exec (.porDec n) s = .next t ∧
      (∀ j < min n.toNat s.cfg.width,
        t.piece j = some (porDecode ((permInvBlock s.cfg.cipher ks)^[s.iter.toNat]) s.breadth.toNat (v j) (p j))) ∧
      (∀ j < min n.toNat s.cfg.width, ∀ x : Nat → Piece, x 0 = p j →
        (∀ q < s.breadth.toNat,
          x (q + 1) =
            decPass ((permInvBlock s.cfg.cipher ks)^[s.iter.toNat])
              (if q + 1 = s.breadth.toNat then v j
               else (permInvBlock s.cfg.cipher ks)^[s.iter.toNat] ((x q).getD 255 0) ^^^ (x q).getD 254 0)
              (x q)) →
        t.piece j = some (x s.breadth.toNat)) ∧
      t.CompletedFrom s (within 0x10000 (4096 * min n.toNat s.cfg.width))

/-- POT_PROVE (R265) completes whenever KS_FWD and SEED are defined: checkpoint k is Fwd^(inner·(k+1))(KS_FWD, SEED) for
k in 0..V−1, with inner = ITER / V, and no other byte changes. -/
def Obligations.PotProveCompletes : Prop :=
  ∀ (s : State) (v : BitVec 5) (ks : KeySchedule) (seed : Block), s.ksFwd = some ks → s.seed = some seed →
    ∃ t, exec (.potProve v) s = .next t ∧
      (∀ k < v.toNat,
        t.checkpoint k = some ((permFwdBlock s.cfg.cipher ks)^[s.iter.toNat / v.toNat * (k + 1)] seed)) ∧
      t.CompletedFrom s (within 0x600 (16 * v.toNat))

/-- POT_VERIFY (R266) completes whenever KS_INV and what intervals FIRST .. LAST read are defined: VOK says whether
Inv^inner(checkpoint k) is the checkpoint before it, or SEED for k = 0, for every k in FIRST..LAST; BUSY = 0, DONE = 1, and
nothing else changes. `p 0` stands for SEED and `p (k + 1)` for checkpoint k. -/
def Obligations.PotVerifyCompletes : Prop :=
  ∀ (s : State) (v : BitVec 5) (first last : BitVec 4) (ks : KeySchedule) (p : Nat → Block),
    first.toNat ≤ last.toNat → s.ksInv = some ks →
    (first.toNat = 0 → s.seed = some (p 0)) →
    (∀ k, first.toNat - 1 ≤ k → k ≤ last.toNat → s.checkpoint k = some (p (k + 1))) →
    exec (.potVerify v first last) s =
      .next { s with
        busy := false, done := true
        vok := decide (∀ k < last.toNat + 1, first.toNat ≤ k →
          (permInvBlock s.cfg.cipher ks)^[s.iter.toNat / v.toNat] (p (k + 1)) = p k) }

/-- Completion faults exactly when a byte the command reads is undefined (R147), and completes otherwise. Legal field values
(R117), as every running command has. That a count above W reads the slots the instance has is the model's choice (log
entry 6). -/
def Obligations.FaultsExactlyOnUndefinedInput : Prop :=
  ∀ (s : State) (i : Instr), i.wellFormed = true →
    ((∃ a, readSet s.cfg i a = true ∧ s.mem.get a = none) → exec i s = .fault .undefinedInput) ∧
    ((∀ a, readSet s.cfg i a = true → s.mem.get a ≠ none) → ∃ t, exec i s = .next t)

/-- Every command writes its write set only (R146) and, of the rest, BUSY, DONE and, for POT_VERIFY alone, VOK (R143). -/
def Obligations.CompletionFrame : Prop :=
  ∀ (i : Instr) (s t : State), exec i s = .next t →
    t = { s with mem := t.mem, busy := false, done := true, vok := t.vok } ∧
    (∀ a, writeSet s.cfg i a = false → t.mem.get a = s.mem.get a) ∧
    ((∀ v f l, i ≠ .potVerify v f l) → t.vok = s.vok)

/-! ## The permutation and the round pipeline (41, 42) -/

/-- SubBytes, InvSubBytes and their tables (R194): each byte through its table; SBOX[x] = A(x⁻¹) ⊕ 0x63 with 0⁻¹ = 0, where
x⁻¹ is the y with x • y = 1; INV_SBOX is SBOX's inverse table. -/
def Obligations.SboxDefinition : Prop :=
  (∀ (s : Block) (i : Nat), i < 16 →
    (subBytes s).byte i = sbox (s.byte i) ∧ (invSubBytes s).byte i = invSbox (s.byte i)) ∧
  let affine := fun y : Byte => y ^^^ y.rotateLeft 1 ^^^ y.rotateLeft 2 ^^^ y.rotateLeft 3 ^^^ y.rotateLeft 4
  sbox 0 = affine 0 ^^^ 0x63 ∧
  (∀ x y : Byte, gfMul x y = 0x01 → sbox x = affine y ^^^ 0x63) ∧
  (∀ x : Byte, x ≠ 0 → ∃ y, gfMul x y = 0x01) ∧
  ∀ x : Byte, invSbox (sbox x) = x ∧ sbox (invSbox x) = x

/-- MixColumns and InvMixColumns (R197): each column's four bytes as the rule writes them, the inverse law, and the rule's
column example. -/
def Obligations.MixColumnsRule : Prop :=
  (∀ (s : Block) (c : Nat), c < 4 →
    let a := fun r => s.byte (r + 4 * c)
    ((mixColumns s).byte (0 + 4 * c) = gfMul 2 (a 0) ^^^ gfMul 3 (a 1) ^^^ gfMul 1 (a 2) ^^^ gfMul 1 (a 3) ∧
     (mixColumns s).byte (1 + 4 * c) = gfMul 1 (a 0) ^^^ gfMul 2 (a 1) ^^^ gfMul 3 (a 2) ^^^ gfMul 1 (a 3) ∧
     (mixColumns s).byte (2 + 4 * c) = gfMul 1 (a 0) ^^^ gfMul 1 (a 1) ^^^ gfMul 2 (a 2) ^^^ gfMul 3 (a 3) ∧
     (mixColumns s).byte (3 + 4 * c) = gfMul 3 (a 0) ^^^ gfMul 1 (a 1) ^^^ gfMul 1 (a 2) ^^^ gfMul 2 (a 3)) ∧
    ((invMixColumns s).byte (0 + 4 * c) = gfMul 0xe (a 0) ^^^ gfMul 0xb (a 1) ^^^ gfMul 0xd (a 2) ^^^ gfMul 9 (a 3) ∧
     (invMixColumns s).byte (1 + 4 * c) = gfMul 9 (a 0) ^^^ gfMul 0xe (a 1) ^^^ gfMul 0xb (a 2) ^^^ gfMul 0xd (a 3) ∧
     (invMixColumns s).byte (2 + 4 * c) = gfMul 0xd (a 0) ^^^ gfMul 9 (a 1) ^^^ gfMul 0xe (a 2) ^^^ gfMul 0xb (a 3) ∧
     (invMixColumns s).byte (3 + 4 * c) = gfMul 0xb (a 0) ^^^ gfMul 0xd (a 1) ^^^ gfMul 9 (a 2) ^^^ gfMul 0xe (a 3))) ∧
  (∀ s : Block, invMixColumns (mixColumns s) = s) ∧
  ∀ s : Block, s.byte 0 = 0xdb → s.byte 1 = 0x13 → s.byte 2 = 0x53 → s.byte 3 = 0x45 →
    (mixColumns s).byte 0 = 0x8e ∧ (mixColumns s).byte 1 = 0x4d ∧ (mixColumns s).byte 2 = 0xa1 ∧
      (mixColumns s).byte 3 = 0xbc

/-- The default key expansion (R172, R173), whichever PERM it stands beside, byte by byte: bytes 0 .. 15 of F are the
identifier; byte j of word i from 4 on is byte j of word i − 4 ⊕ byte j of the word before, which for i mod 4 = 0 is first
rotated by one byte, put through SBOX and xored in byte 0 with RCON[i/4]; I is F's round keys in reverse order, the nine
inner ones through InvMixColumns. -/
def Obligations.DefaultKeyExpansion : Prop :=
  ∀ (p : CipherSel) (id : Block), p.keyExp = .aes128 →
    let f := fun k : Nat => (keyExpand p id).1.extractLsb' (8 * k) 8
    (∀ k < 16, f k = id.byte k) ∧
    (∀ i j, 4 ≤ i → i < 44 → j < 4 →
      f (4 * i + j) = f (4 * (i - 4) + j) ^^^
        (if i % 4 = 0 then
          sbox (f (4 * (i - 1) + (j + 1) % 4)) ^^^
            (if j = 0 then [0x01, 0x02, 0x04, 0x08, 0x10, 0x20, 0x40, 0x80, 0x1b, 0x36].getD (i / 4 - 1) (0 : Byte) else 0)
        else f (4 * (i - 1) + j))) ∧
    (keyExpand p id).2.rk 0 = (keyExpand p id).1.rk 10 ∧
    (∀ k, 1 ≤ k → k ≤ 9 → (keyExpand p id).2.rk k = invMixColumns ((keyExpand p id).1.rk (10 - k))) ∧
    (keyExpand p id).2.rk 10 = (keyExpand p id).1.rk 0

/-- The block permutation. (1) ShiftRows and InvShiftRows (R195): byte r + 4c of the result is byte r + 4((c + r) mod 4), or
byte r + 4((c − r) mod 4). (2) The default Fwd and Inv (R198, R199), whichever KEYEXP they stand beside, by the Blocks
a 0, …, a 9 they pass through: a 0 = b ⊕ rk(ks, 0); a r for r in 1..9 is a (r − 1) after the three transformations of a full
round, ⊕ rk(ks, r); the result is a 9 after the last round's two, ⊕ rk(ks, 10). (3) For every schedule, Fwd is a bijection on
Blocks (R191(a)), whichever PERM and KEYEXP the configuration has. -/
def Obligations.DefaultFwdInvRoundsAndFwdBijective : Prop :=
  (∀ (s : Block) (r c : Nat), r < 4 → c < 4 →
    (shiftRows s).byte (r + 4 * c) = s.byte (r + 4 * ((c + r) % 4)) ∧
    (invShiftRows s).byte (r + 4 * c) = s.byte (r + 4 * ((c + 4 - r) % 4))) ∧
  (∀ (p : CipherSel) (ks : KeySchedule) (b : Block) (a : Nat → Block), p.perm = .aes128 → a 0 = b ^^^ ks.extractLsb' 0 128 →
    ((∀ r, 1 ≤ r → r ≤ 9 →
        a r = mixColumns (shiftRows (subBytes (a (r - 1)))) ^^^ ks.extractLsb' (128 * r) 128) →
      permFwdBlock p ks b = shiftRows (subBytes (a 9)) ^^^ ks.extractLsb' 1280 128) ∧
    ((∀ r, 1 ≤ r → r ≤ 9 →
        a r = invMixColumns (invSubBytes (invShiftRows (a (r - 1)))) ^^^ ks.extractLsb' (128 * r) 128) →
      permInvBlock p ks b = invSubBytes (invShiftRows (a 9)) ^^^ ks.extractLsb' 1280 128)) ∧
  ∀ (p : CipherSel) (ks : KeySchedule), Function.Bijective (permFwdBlock p ks)

/-- Schedules of one identifier undo each other (R171): for every identifier, R and Block, Inv^R(I, Fwd^R(F, b)) = b,
whichever PERM and KEYEXP the configuration has, the defaults among them, each alone and both together. -/
def Obligations.MatchingSchedulesInvert : Prop :=
  ∀ (p : CipherSel) (id b : Block) (r : Nat),
    (permInvBlock p (keyExpand p id).2)^[r] ((permFwdBlock p (keyExpand p id).1)^[r] b) = b

/-- Width independence of the round pipeline (R203), with lane independence (R202): for two commands of counts N and N' in
their instances' KSETs, lane j below both leaves the same value, given the same LANE[j], ITER, bank and permutation; the
instances may be of different variants. A count above W: the lanes the instance has (log entry 6). -/
def Obligations.PermWidthIndependent : Prop :=
  ∀ (s s' t t' : State) (n n' : BitVec 4) (j : Nat),
    s.cfg.accepts n.toNat = true → s'.cfg.accepts n'.toNat = true →
    j < min n.toNat s.cfg.width → j < min n'.toNat s'.cfg.width →
    permFwdBlock s.cfg.cipher = permFwdBlock s'.cfg.cipher → permInvBlock s.cfg.cipher = permInvBlock s'.cfg.cipher →
    s.iter = s'.iter → s.lane j = s'.lane j →
    (s.ksFwd = s'.ksFwd → exec (.permFwd n) s = .next t → exec (.permFwd n') s' = .next t' → t.lane j = t'.lane j) ∧
    (s.ksInv = s'.ksInv → exec (.permInv n) s = .next t → exec (.permInv n') s' = .next t' → t.lane j = t'.lane j)

/-- Round trip of the round pipeline (R204): with the schedules of one identifier in the banks, PERM_FWD N then PERM_INV N,
ITER unchanged, restores LANE[0..N−1]. A count above W: the lanes the instance has (log entry 6). -/
def Obligations.PermRoundTrip : Prop :=
  ∀ (s : State) (n : BitVec 4) (id : Block) (b : Nat → Block),
    s.ksFwd = some (keyExpand s.cfg.cipher id).1 → s.ksInv = some (keyExpand s.cfg.cipher id).2 →
    (∀ j < min n.toNat s.cfg.width, s.lane j = some (b j)) →
    ∃ t u, exec (.permFwd n) s = .next t ∧ exec (.permInv n) t = .next u ∧
      ∀ j < min n.toNat s.cfg.width, u.lane j = some (b j)

/-! ## Proof-of-Replication (43) -/

/-- One forward pass (R230): block i is Fwd^A(X_i ⊕ fb_i), fb_0 = iv and fb_(i+1) = block i of the result. -/
def Obligations.EncPassFeedback : Prop :=
  ∀ (p : CipherSel) (ks : KeySchedule) (a : Nat) (x : Piece) (iv : Block),
    (encPass (fwdIter p ks a) iv x).length = x.length ∧
    ∀ i < x.length,
      (encPass (fwdIter p ks a) iv x).getD i 0 =
        fwdIter p ks a (x.getD i 0 ^^^ (if i = 0 then iv else (encPass (fwdIter p ks a) iv x).getD (i - 1) 0))

/-- One inverse pass (R232): block i is Inv^A(Y_i) ⊕ (iv for block 0, else block i − 1 of the input Y). -/
def Obligations.DecPassFeedback : Prop :=
  ∀ (p : CipherSel) (ks : KeySchedule) (a : Nat) (y : Piece) (iv : Block),
    (decPass (invIter p ks a) iv y).length = y.length ∧
    ∀ i < y.length,
      (decPass (invIter p ks a) iv y).getD i 0 =
        invIter p ks a (y.getD i 0) ^^^ (if i = 0 then iv else y.getD (i - 1) 0)

/-- Seed recovery (R233): Inv^A(Y_255) ⊕ Y_254, which is block 255 of the inverse pass under any seed. -/
def Obligations.RecoverSeedRule : Prop :=
  ∀ (p : CipherSel) (ks : KeySchedule) (a : Nat) (y : Piece) (any : Block), y.length = 256 →
    recoverSeed (invIter p ks a) y = invIter p ks a (y.getD 255 0) ^^^ y.getD 254 0 ∧
    recoverSeed (invIter p ks a) y = (decPass (invIter p ks a) any y).getD 255 0

/-- A wrong IV changes block 0 of a decode only, by IV_true ⊕ IV_used, at every B ≥ 1 (R237, corner cases). -/
def Obligations.WrongIvChangesBlockZeroOnly : Prop :=
  ∀ (g : Block → Block) (b : Nat) (ivTrue ivUsed : Block) (c : Piece), 1 ≤ b → c.length = 256 →
    (porDecode g b ivUsed c).getD 0 0 = (porDecode g b ivTrue c).getD 0 0 ^^^ ivTrue ^^^ ivUsed ∧
    ∀ i < 256, i ≠ 0 → (porDecode g b ivUsed c).getD i 0 = (porDecode g b ivTrue c).getD i 0

/-- A zero piece encodes, in one pass, to block i = Fwd^(A·(i+1))(IV) (R236, corner cases). -/
def Obligations.ZeroPieceEncodesToTheChain : Prop :=
  ∀ (p : CipherSel) (ks : KeySchedule) (a : Nat) (iv : Block) (i : Nat), i < 256 →
    (porEncode (fwdIter p ks a) 1 iv (List.replicate 256 0)).getD i 0 = fwdIter p ks (a * (i + 1)) iv

/-- Round trip of replication (R238): with the schedules of one identifier in the banks, and ITER and BREADTH at least 1,
POR_ENC K then POR_DEC K restores PIECE[0..K−1]. A count above W: the pieces the instance has (log entry 6). -/
def Obligations.PorRoundTrip : Prop :=
  ∀ (s : State) (n : BitVec 4) (id : Block) (v : Nat → Block) (p : Nat → Piece),
    s.ksFwd = some (keyExpand s.cfg.cipher id).1 → s.ksInv = some (keyExpand s.cfg.cipher id).2 →
    1 ≤ s.iter.toNat → 1 ≤ s.breadth.toNat →
    (∀ j < min n.toNat s.cfg.width, s.iv j = some (v j) ∧ s.piece j = some (p j)) →
    ∃ t u, exec (.porEnc n) s = .next t ∧ exec (.porDec n) t = .next u ∧
      ∀ j < min n.toNat s.cfg.width, u.piece j = some (p j)

/-- Interleave-width independence (R239): for two commands of counts K and K' in their instances' KSETs, slot j below both
is left with the same bytes, given the same PIECE[j], IV[j], ITER, BREADTH, bank and permutation. A count above W: the
slots the instance has (log entry 6). -/
def Obligations.PorWidthIndependent : Prop :=
  ∀ (s s' t t' : State) (n n' : BitVec 4) (j : Nat),
    s.cfg.accepts n.toNat = true → s'.cfg.accepts n'.toNat = true →
    j < min n.toNat s.cfg.width → j < min n'.toNat s'.cfg.width →
    permFwdBlock s.cfg.cipher = permFwdBlock s'.cfg.cipher → permInvBlock s.cfg.cipher = permInvBlock s'.cfg.cipher →
    s.iter = s'.iter → s.breadth = s'.breadth → s.iv j = s'.iv j → s.piece j = s'.piece j →
    (s.ksFwd = s'.ksFwd → exec (.porEnc n) s = .next t → exec (.porEnc n') s' = .next t' → t.piece j = t'.piece j) ∧
    (s.ksInv = s'.ksInv → exec (.porDec n) s = .next t → exec (.porDec n') s' = .next t' → t.piece j = t'.piece j)

/-! ## Proof-of-Time (44) -/

/-- The checkpoint chain (R260): V checkpoints, cp[k] = Fwd^inner(cp[k−1]) with cp[−1] the seed, so
cp[k] = Fwd^(inner·(k+1))(seed). -/
def Obligations.CheckpointChain : Prop :=
  ∀ (p : CipherSel) (ks : KeySchedule) (seed : Block) (v inner : Nat),
    (potChain (fwdIter p ks inner) seed v).length = v ∧
    ∀ k < v,
      (potChain (fwdIter p ks inner) seed v).getD k 0 =
        fwdIter p ks inner (if k = 0 then seed else (potChain (fwdIter p ks inner) seed v).getD (k - 1) 0) ∧
      (potChain (fwdIter p ks inner) seed v).getD k 0 = fwdIter p ks (inner * (k + 1)) seed

/-- Validity (R267): with the schedules of one identifier in the banks, POT_PROVE V then POT_VERIFY V over any legal range,
SEED and ITER unchanged, gives VOK = 1. -/
def Obligations.ProvedProofVerifies : Prop :=
  ∀ (s : State) (v : BitVec 5) (first last : BitVec 4) (id seed : Block),
    s.ksFwd = some (keyExpand s.cfg.cipher id).1 → s.ksInv = some (keyExpand s.cfg.cipher id).2 → s.seed = some seed →
    (Instr.potVerify v first last).wellFormed = true →
    ∃ t u, exec (.potProve v) s = .next t ∧ exec (.potVerify v first last) t = .next u ∧ u.vok = true

/-- A changed checkpoint is found (R267): after POT_PROVE V, put any other Block in checkpoint k and every legal range that
contains k, or the next checkpoint, gives VOK = 0. -/
def Obligations.ChangedCheckpointIsRejected : Prop :=
  ∀ (s t : State) (v : BitVec 5) (first last : BitVec 4) (id seed c c' : Block) (k : Nat),
    s.ksFwd = some (keyExpand s.cfg.cipher id).1 → s.ksInv = some (keyExpand s.cfg.cipher id).2 → s.seed = some seed →
    (Instr.potVerify v first last).wellFormed = true →
    (first.toNat ≤ k ∧ k ≤ last.toNat) ∨ (first.toNat ≤ k + 1 ∧ k + 1 ≤ last.toNat) →
    exec (.potProve v) s = .next t → t.checkpoint k = some c → c' ≠ c →
    ∃ u, exec (.potVerify v first last) { t with mem := t.mem.writeBlock (0x600 + 16 * k) c' } = .next u ∧ u.vok = false

/-- Split verification (R268): instance x checks FIRST .. m and instance y checks m + 1 .. LAST, each holding only the bytes
its own range reads, as the single instance s holds them; the AND of the two results is the single instance's. -/
def Obligations.SplitVerifyEqualsWhole : Prop :=
  ∀ (s x y t tx ty : State) (v : BitVec 5) (first m m' last : BitVec 4),
    first.toNat ≤ m.toNat → m'.toNat = m.toNat + 1 → m'.toNat ≤ last.toNat →
    permInvBlock x.cfg.cipher = permInvBlock s.cfg.cipher → permInvBlock y.cfg.cipher = permInvBlock s.cfg.cipher →
    x.iter = s.iter → y.iter = s.iter →
    (∀ a, readSet x.cfg (.potVerify v first m) a = true → x.mem.get a = s.mem.get a) →
    (∀ a, readSet y.cfg (.potVerify v m' last) a = true → y.mem.get a = s.mem.get a) →
    exec (.potVerify v first last) s = .next t → exec (.potVerify v first m) x = .next tx →
    exec (.potVerify v m' last) y = .next ty →
    t.vok = (tx.vok && ty.vok)

/-! ## Registers and the host window (10, 20) -/

/-- ID (R31): it reads 0x52504531 and a write is ignored, whatever BUSY is. -/
def Obligations.IdRegister : Prop :=
  ∀ s : State, hostRead 0 s = .next { s with rdata := some 0x52504531 } ∧ ∀ d, hostWrite 0 d s = s

/-- CAPS (R33): every field at its place, the reserved bits 0, a write ignored; and the four words it reads with the default
KSET, Q and HAS_KEYGEN. -/
def Obligations.CapsRegister : Prop :=
  [Variant.scalarTable, .bitsliced8, .pipe4, .pipe12].map (fun v => { Config.default with variant := v }.capsWord) =
    [0x00030101, 0x00031508, 0x00032304, 0x0003390C] ∧
  ∀ s : State, ∃ w : Word,
    w = s.cfg.capsWord ∧ hostRead 1 s = .next { s with rdata := some w } ∧ (∀ d, hostWrite 1 d s = s) ∧
    (w.extractLsb' 0 5).toNat = s.cfg.width ∧ w.extractLsb' 5 3 = 0 ∧
    w.getLsbD 8 = true ∧ w.getLsbD 9 = s.cfg.accepts 4 ∧ w.getLsbD 10 = s.cfg.accepts 8 ∧
    w.getLsbD 11 = s.cfg.accepts 12 ∧
    w.extractLsb' 12 4 =
      (match s.cfg.variant with | .scalarTable => 0 | .bitsliced8 => 1 | .pipe4 => 2 | .pipe12 => 3) ∧
    w.getLsbD 16 = s.cfg.hasKeygen ∧ (w.getLsbD 17 = true ↔ s.cfg.quantum = 12) ∧ w.extractLsb' 18 14 = 0

/-- CTRL (R34): a read returns IE alone; a write with d[1] = 0 sets IE <- d[0] and changes nothing else; a write with
d[1] = 1 is the soft reset, and d[0] is ignored. Both whatever BUSY is. IE is 0 after reset. -/
def Obligations.CtrlRegister : Prop :=
  (∀ c : Config, (State.resetWith c).ie = false) ∧
  ∀ s : State,
    hostRead 2 s = .next { s with rdata := some (if s.ie then 1 else 0) } ∧
    (∀ d : Word, d.getLsbD 1 = false → hostWrite 2 d s = { s with ie := d.getLsbD 0 }) ∧
    (∀ d : Word, d.getLsbD 1 = true → hostWrite 2 d s = s.softReset)

/-- STATUS (R35): what a read returns, field by field, and what a write clears, whatever BUSY is. -/
def Obligations.StatusRegister : Prop :=
  ∀ s : State,
    (∃ w : Word, hostRead 3 s = .next { s with rdata := some w } ∧
      w.getLsbD 0 = s.busy ∧ w.getLsbD 1 = s.done ∧ w.getLsbD 2 = s.err ∧ w.getLsbD 3 = s.vok ∧
      w.extractLsb' 4 4 = 0 ∧ w.extractLsb' 8 4 = s.errcode ∧ w.extractLsb' 12 20 = 0) ∧
    ∀ d : Word, hostWrite 3 d s =
      { s with
        done := s.done && !d.getLsbD 1
        err := s.err && !d.getLsbD 2
        errcode := if d.getLsbD 2 then 0 else s.errcode }

/-- Reserved offsets (R32), by the gaps of R82 and the slots W .. 11 of R49: a read returns 0, a write is ignored, and ERR is
never set, even while BUSY = 1. -/
def Obligations.ReservedOffsets : Prop :=
  ∀ (s : State) (wa : BitVec 15),
    (let a := 4 * wa.toNat
     (0x01C ≤ a ∧ a < 0x100) ∨ (0x1B0 ≤ a ∧ a < 0x200) ∨ (0x2B0 ≤ a ∧ a < 0x300) ∨ (0x320 ≤ a ∧ a < 0x400) ∨
     (0x400 + 16 * s.cfg.width ≤ a ∧ a < 0x500) ∨ (0x500 + 16 * s.cfg.width ≤ a ∧ a < 0x600) ∨
     (0x700 ≤ a ∧ a < 0x10000) ∨ 0x10000 + 4096 * s.cfg.width ≤ a) →
    hostRead wa s = .next { s with rdata := some 0 } ∧ ∀ d, hostWrite wa d s = s

/-- Host access to the data windows, ITER and BREADTH (R55). BUSY = 0: a write stores and a read of what is defined returns
it. BUSY = 1: a write to any of them or to CMD is refused with code 8 and stores nothing; a read of a word of the running
command's write set returns the next free word, of any other word its contents. That a read of the write set is a draw of `Config.unspecifiedWord`, its own for each instance and draw, is
the model's choice (log entry 3), and so is that it is one when the word also holds an undefined byte (log entry 20). -/
def Obligations.HostAccessToOperands : Prop :=
  ∀ (s : State) (wa : BitVec 15) (d : Word),
    (s.busy = false → isData s.cfg (4 * wa.toNat) = true →
      (∃ m, hostWrite wa d s = { s with mem := m } ∧ hostRead wa (hostWrite wa d s) = .next { s with mem := m, rdata := some d }) ∧
      ∀ w, s.mem.readWord (4 * wa.toNat) = some w → hostRead wa s = .next { s with rdata := some w }) ∧
    (s.busy = false → hostWrite 5 d s = { s with iter := d } ∧ hostWrite 6 d s = { s with breadth := d }) ∧
    (s.busy = true → isData s.cfg (4 * wa.toNat) = true ∨ wa = 4 ∨ wa = 5 ∨ wa = 6 →
      hostWrite wa d s = { s with err := true, errcode := 8 }) ∧
    (s.busy = true → ∀ i, decode s.cur = .ok i → isData s.cfg (4 * wa.toNat) = true →
      ((∃ m < 4, writeSet s.cfg i (4 * wa.toNat + m) = true) →
        hostRead wa s = .next { s with rdata := some (Config.unspecifiedWord s.cfg.baseIndex s.draws), draws := s.draws + 1 }) ∧
      ((∀ m < 4, writeSet s.cfg i (4 * wa.toNat + m) = false) → ∀ w, s.mem.readWord (4 * wa.toNat) = some w →
        hostRead wa s = .next { s with rdata := some w })) ∧
    hostRead 5 s = .next { s with rdata := some s.iter } ∧ hostRead 6 s = .next { s with rdata := some s.breadth }

/-- Little-endian packing (R81): while BUSY = 0 a HostWrite to a data word stores bits 8m+7:8m in byte 4wa+m and no other
byte changes, and a HostRead returns the word whose bits 8m+7:8m are byte 4wa+m. -/
def Obligations.LittleEndianWords : Prop :=
  ∀ (s : State) (wa : BitVec 15), s.busy = false → isData s.cfg (4 * wa.toNat) = true →
    (∀ d : Word, ∃ t, hostWrite wa d s = t ∧ t = { s with mem := t.mem } ∧
      (∀ m < 4, t.mem.get (4 * wa.toNat + m) = some (d.extractLsb' (8 * m) 8)) ∧
      ∀ a, a < 4 * wa.toNat ∨ 4 * wa.toNat + 4 ≤ a → t.mem.get a = s.mem.get a) ∧
    ∀ b : Nat → Byte, (∀ m < 4, s.mem.get (4 * wa.toNat + m) = some (b m)) →
      hostRead wa s = .next { s with rdata := some (b 3 ++ b 2 ++ b 1 ++ b 0) }

/-- A host read of a data-window word that holds an undefined byte is a fault (R53, U1): of any word while BUSY = 0, and,
while a command runs, of any word outside its write set. -/
def Obligations.UndefinedReadFaults : Prop :=
  ∀ (s : State) (wa : BitVec 15) (m : Nat),
    (s.busy = false ∨
      ∃ i, decode s.cur = .ok i ∧ ∀ k < 4, writeSet s.cfg i (4 * wa.toNat + k) = false) →
    isData s.cfg (4 * wa.toNat) = true → m < 4 → s.mem.get (4 * wa.toNat + m) = none →
    hostRead wa s = .fault .undefinedRead

/-- Reads are idempotent (R86): while BUSY = 0 the same read again gives the same answer and the same state. -/
def Obligations.ReadsAreIdempotent : Prop :=
  ∀ (s t : State) (wa : BitVec 15), s.busy = false → hostRead wa s = .next t → hostRead wa t = .next t

/-- Accesses a bus bridge offers (R84, U17): an aligned 4-byte access inside the window at RPE_BASE is the word transaction
at (address − RPE_BASE) / 4; every other is a fault by name. -/
def Obligations.OnlyAlignedWordsAreExpressible : Prop :=
  ∀ (s : State) (addr width : Nat) (data : Option Word) (rest : List Input),
    s.inputs = .access addr width data :: rest →
    (width ≠ 4 ∨ addr % 4 ≠ 0 ∨ addr < s.cfg.baseIndex * 0x20000 ∨ s.cfg.baseIndex * 0x20000 + 0x20000 ≤ addr →
      step s = .fault .inexpressibleAccess) ∧
    ∀ wa : BitVec 15, width = 4 → addr = s.cfg.baseIndex * 0x20000 + 4 * wa.toNat →
      (data = none → step s = hostRead wa { s with inputs := rest }) ∧
      ∀ d, data = some d → step s = .next (hostWrite wa d { s with inputs := rest })

/-! ## Errors and the interrupt (60) -/

/-- The interrupt output (R52): `IRQ = IE ∧ (DONE ∨ ERR)`. -/
def Obligations.InterruptIsALevel : Prop :=
  ∀ s : State, s.irq = true ↔ s.ie = true ∧ (s.done = true ∨ s.err = true)

/-- Acknowledging an error (R295): writing 1 to STATUS bit 2 sets ERR and ERRCODE to 0; an error while ERR = 1 overwrites
ERRCODE and leaves ERR = 1; whether and why a launch is rejected depends on neither ERR nor DONE. -/
def Obligations.ErrorsNeverBlockLaunches : Prop :=
  (∀ (s : State) (d : Word), d.getLsbD 2 = true → (hostWrite 3 d s).err = false ∧ (hostWrite 3 d s).errcode = 0) ∧
  (∀ (s : State) (d : Word) (e : ErrCode), s.err = true → s.busy = false → check s d = some e →
    (launch d s).err = true ∧ (launch d s).errcode = e.code) ∧
  ∀ (s : State) (d : Word) (e dn : Bool) (c : BitVec 4),
    check { s with err := e, errcode := c, done := dn } d = check s d ∧
    ((launch d { s with err := e, errcode := c, done := dn }).busy = (launch d s).busy)

/-! ## Reset (70) -/

/-- The state after a hard reset (R56), in every configuration, both the one the machine starts in and the one that a step
leaves whose input is a hard reset: each register at the rule's value, every byte of the data windows undefined, IRQ 0. Such
a step always answers a next state. (CUR is unspecified; nothing is said of it.) -/
def Obligations.HardResetValues : Prop :=
  let isReset := fun r : State =>
    r.ie = false ∧ r.busy = false ∧ r.done = false ∧ r.err = false ∧ r.vok = false ∧ r.errcode = 0 ∧ r.iter = 0 ∧
      r.breadth = 1 ∧ (∀ a, r.mem.get a = none) ∧ r.irq = false
  (∀ c : Config, isReset (State.resetWith c)) ∧
  ∀ (s : State) (rest : List Input), s.inputs = .hardReset :: rest → ∃ r, step s = .next r ∧ isReset r

/-- Soft reset (R331), a host write to CTRL with d[1] = 1: the write set of a running command becomes undefined, every other
byte keeps its value, the control state takes its reset values, and nothing else changes. The command is abandoned:
BUSY = 0. ERR is not set. -/
def Obligations.SoftResetPseudocode : Prop :=
  ∀ (s : State) (d : Word), d.getLsbD 1 = true → ∃ t, hostWrite 2 d s = t ∧
    (∀ i, s.busy = true → decode s.cur = .ok i →
      ∀ a, t.mem.get a = if writeSet s.cfg i a = true then none else s.mem.get a) ∧
    (s.busy = false → t.mem = s.mem) ∧
    t =
      { s with
        mem := t.mem
        ie := false, busy := false, done := false, err := false, vok := false, errcode := 0, iter := 0, breadth := 1 }

/-- The reset state at work (R333): every POR and POT command with fields the configuration accepts is rejected with code 4
until ITER is set; a PERM command is accepted; BREADTH = 1; and a host write to a data window, ITER or BREADTH is
accepted. -/
def Obligations.ResetStateRejectsPorAndPot : Prop :=
  ∀ (c : Config) (n : BitVec 4) (v : BitVec 5) (first last : BitVec 4),
    let r := State.resetWith c
    r.irq = false ∧ r.breadth = 1 ∧
    (∀ (wa : BitVec 15) (d : Word), (hostWrite wa d r).err = true → wa = 4) ∧
    ((Instr.permFwd n).wellFormed = true → c.accepts n.toNat = true →
      launch (encode (.porEnc n)) r = { r with err := true, errcode := 4 } ∧
      launch (encode (.porDec n)) r = { r with err := true, errcode := 4 } ∧
      launch (encode (.permFwd n)) r = { r with cur := encode (.permFwd n), busy := true, vok := false } ∧
      launch (encode (.permInv n)) r = { r with cur := encode (.permInv n), busy := true, vok := false }) ∧
    ((Instr.potVerify v first last).wellFormed = true →
      launch (encode (.potProve v)) r = { r with err := true, errcode := 4 } ∧
      launch (encode (.potVerify v first last)) r = { r with err := true, errcode := 4 })

/-- ITER = 0 is the identity on the lanes (R200 and R201, corner cases): a PERM command that completes leaves every byte as
it was, and sets DONE. -/
def Obligations.PermWithIterZeroIsIdentity : Prop :=
  ∀ (s t : State) (n : BitVec 4), s.iter = 0 → (exec (.permFwd n) s = .next t ∨ exec (.permInv n) s = .next t) →
    (∀ a, t.mem.get a = s.mem.get a) ∧ t.done = true

/-! ## The whole machine -/

/-- The invariant holds after a hard reset, in every configuration. -/
def Obligations.InvariantHoldsAtReset : Prop := ∀ c : Config, (State.resetWith c).Inv

/-- Every step keeps the invariant: memory in canonical form and inside the data windows, ERRCODE 0 exactly while ERR = 0
and never above 9, VOK 0 and the command still passing Check while it runs. -/
def Obligations.StepKeepsInvariant : Prop := ∀ s t : State, s.Inv → step s = .next t → t.Inv

/-- A state that meets the invariant never steps to a refusal: every command the machine accepts has its meaning. -/
def Obligations.InvariantExcludesRefusal : Prop := ∀ (s : State) (r : Refusal), s.Inv → step s ≠ .refused r

/-- No step changes a configuration, so ID and CAPS are constants (R31, R33, R332); and instances are independent (R96): no
step of a system changes a configuration, so its windows stay disjoint; the host's access at an address in the window of
instance k changes no other instance, and neither does a turn of engine k or a hard reset of instance k; and the inputs that
follow are taken in their order. -/
def Obligations.ConfigurationIsConstantAndInstancesIndependent : Prop :=
  (∀ s t : State, step s = .next t → t.cfg = s.cfg) ∧
  ∀ sys sys' : System, stepSystem sys = .next sys' →
    sys'.members.map State.cfg = sys.members.map State.cfg ∧ (sys.disjoint → sys'.disjoint) ∧
    ∀ (rest : List SystemInput) (k : Nat),
      ((∃ addr width data s, sys.disjoint ∧ sys.inputs = .bus addr width data :: rest ∧ sys.members[k]? = some s ∧
          s.cfg.baseIndex * 0x20000 ≤ addr ∧ addr < s.cfg.baseIndex * 0x20000 + 0x20000) ∨
        sys.inputs = .engine k :: rest ∨ sys.inputs = .hardReset k :: rest) →
      sys'.inputs = rest ∧ ∀ j, j ≠ k → sys'.members[j]? = sys.members[j]?

/-- A command's inputs are those at its launch (R94): while BUSY = 1, no host transaction but a soft reset changes BUSY,
CUR, ITER, BREADTH or a data window; so the command's completion, before or after that transaction, gives the same data
windows and the same VOK. -/
def Obligations.RunningCommandKeepsItsInputs : Prop :=
  ∀ (s t : State) (x : HostTxn) (rest : List Input), s.inputs = .host x :: rest → s.busy = true →
    ¬(x.write = true ∧ x.wa = 2 ∧ x.d.getLsbD 1 = true) → step s = .next t →
    (t.busy = true ∧ t.cur = s.cur ∧ t.iter = s.iter ∧ t.breadth = s.breadth ∧ t.mem = s.mem) ∧
    ∀ i u, exec i s = .next u → ∃ u', exec i t = .next u' ∧ u'.mem = u.mem ∧ u'.vok = u.vok

/-- A running command ends in three ways only (R89, R149): the engine completes it (with no input left the model gives it the
turn, log entry 4), a soft reset abandons it, or a hard reset does. -/
def Obligations.RunningCommandEndsByCompletionOrReset : Prop :=
  ∀ s t : State, step s = .next t → s.busy = true → t.busy = false →
    (∃ i rest, (s.inputs = .engine :: rest ∨ (s.inputs = [] ∧ rest = [])) ∧ decode s.cur = .ok i ∧
      exec i { s with inputs := rest } = .next t) ∨
    (∃ x rest, s.inputs = .host x :: rest ∧ x.write = true ∧ x.wa = 2 ∧ x.d.getLsbD 1 = true) ∨
    (∃ a d rest, s.inputs = .access a 4 (some d) :: rest ∧ a = s.cfg.baseIndex * 0x20000 + 8 ∧ d.getLsbD 1 = true) ∨
    ∃ rest, s.inputs = .hardReset :: rest

/-- VOK rises only when the engine completes a POT_VERIFY (R35, R344): the step is the engine's turn (with no input left the
model gives it to the engine, log entry 4), BUSY was 1, CUR decodes to a POT_VERIFY, and the next state is its completion. -/
def Obligations.VokRisesOnlyByVerify : Prop :=
  ∀ s t : State, step s = .next t → s.vok = false → t.vok = true →
    s.busy = true ∧ ∃ v first last rest, decode s.cur = .ok (.potVerify v first last) ∧
      (s.inputs = .engine :: rest ∨ (s.inputs = [] ∧ rest = [])) ∧
      exec (.potVerify v first last) { s with inputs := rest } = .next t
end

