-- ==== Sys2Proof/Laws/Blocks.lean ====
section
/-! SUPPORT. Bytes of a Block and round keys of a KeySchedule: building one and reading it back. -/

namespace Sys2Proof

/-- Byte `i` of a Block built byte by byte. -/
theorem Block.byte_ofFn (f : Nat → Byte) (i : Nat) (h : i < 16) : (Block.ofFn f).byte i = f i := by
  apply BitVec.eq_of_getLsbD_eq
  intro j hj
  simp only [Block.byte, Block.ofFn, BitVec.getLsbD_extractLsb', BitVec.getLsbD_append, hj, decide_true, Bool.true_and]
  interval_cases i <;> interval_cases j <;> rfl

/-- Two Blocks with the same 16 bytes are equal. -/
theorem Block.ext_bytes {b c : Block} (h : ∀ i < 16, b.byte i = c.byte i) : b = c := by
  apply BitVec.eq_of_getLsbD_eq
  intro j hj
  have := congrArg (fun x : Byte => x.getLsbD (j % 8)) (h (j / 8) (by omega))
  simp only [Block.byte, BitVec.getLsbD_extractLsb', Nat.mod_lt j (show 8 > 0 by omega), decide_true, Bool.true_and] at this
  rwa [Nat.div_add_mod] at this

/-- A Block built from its own bytes. -/
theorem Block.ofFn_byte (b : Block) : Block.ofFn b.byte = b :=
  Block.ext_bytes fun i hi => Block.byte_ofFn _ i hi

/-- Exclusive-or acts byte by byte (R11). -/
theorem Block.byte_xor (b c : Block) (i : Nat) : (b ^^^ c).byte i = b.byte i ^^^ c.byte i := by
  simp only [Block.byte, BitVec.extractLsb'_xor]

/-- Round key `k` of a KeySchedule built from its round keys. -/
theorem KeySchedule.rk_ofRoundKeys (f : Nat → Block) (k : Nat) (h : k < 11) : (KeySchedule.ofRoundKeys f).rk k = f k := by
  apply BitVec.eq_of_getLsbD_eq
  intro j hj
  simp only [KeySchedule.rk, KeySchedule.ofRoundKeys, BitVec.getLsbD_extractLsb', BitVec.getLsbD_append, hj, decide_true,
    Bool.true_and]
  interval_cases k <;> simp <;> grind

end Sys2Proof
end

