-- ==== Sys2Proof/Laws/Instances.lean ====
section
/-! SUPPORT. What a step of a system can do, said once: one instance takes one step and no other changes. -/

namespace Sys2Proof.Machine

/-- All that an input to instance `k` can do: nothing when there is no such instance, else that instance's own step, with
every other instance as it was (R96). -/
theorem stepInstance_cases (sys : System) (k : Nat) (i : Input) :
    (sys.members[k]? = none ∧ stepInstance sys k i = .next sys) ∨
    ∃ s, sys.members[k]? = some s ∧
      ((∃ t, step (s.setInputs (i :: s.inputs)) = .next t ∧
          stepInstance sys k i = .next { sys with members := sys.members.set k t }) ∨
       (∃ r, step (s.setInputs (i :: s.inputs)) = .fault r ∧ stepInstance sys k i = .fault r) ∨
       (∃ r, step (s.setInputs (i :: s.inputs)) = .refused r ∧ stepInstance sys k i = .refused r)) := by
  unfold stepInstance
  cases hs : sys.members[k]? with
  | none => exact .inl ⟨rfl, rfl⟩
  | some s =>
    refine .inr ⟨s, rfl, ?_⟩
    cases ht : step (s.setInputs (i :: s.inputs)) with
    | next t => exact .inl ⟨t, rfl, by simp only [ht]⟩
    | fault r => exact .inr (.inl ⟨r, rfl, by simp only [ht]⟩)
    | refused r => exact .inr (.inr ⟨r, rfl, by simp only [ht]⟩)

/-- An input to instance `k` leaves every other instance as it was (R96). -/
theorem stepInstance_frame {sys sys' : System} {k : Nat} {i : Input} (h : stepInstance sys k i = .next sys') {j : Nat}
    (hj : j ≠ k) : sys'.members[j]? = sys.members[j]? := by
  rcases stepInstance_cases sys k i with ⟨-, he⟩ | ⟨s, -, ⟨t, -, he⟩ | ⟨r, -, he⟩ | ⟨r, -, he⟩⟩
  · rw [he] at h; injection h with h; rw [h]
  · rw [he] at h; injection h with h; rw [← h]; exact List.getElem?_set_ne (Ne.symm hj)
  · rw [he] at h; cases h
  · rw [he] at h; cases h

/-- All that a step of a system can be: nothing, an access outside every window, or an input to one instance. -/
theorem stepSystem_cases (sys : System) :
    (sys.inputs = [] ∧ stepSystem sys = .next sys) ∨ stepSystem sys = .fault .inexpressibleAccess ∨
    ∃ k i is, stepSystem sys = stepInstance { sys with inputs := is } k i := by
  unfold stepSystem
  split
  · next h =>
    split
    · next k hk => exact .inr (.inr ⟨k, .engine, sys.inputs, rfl⟩)
    · exact .inl ⟨h, rfl⟩
  · split
    · exact .inr (.inr ⟨_, _, _, rfl⟩)
    · exact .inr (.inl rfl)
  · exact .inr (.inr ⟨_, _, _, rfl⟩)
  · exact .inr (.inr ⟨_, _, _, rfl⟩)

end Sys2Proof.Machine
end

