-- ==== Sys2Proof/Laws/Memory.lean ====
section
/-! SUPPORT. What each memory operation does to one byte, to one Block, and to the canonical form. -/

namespace Sys2Proof.Machine

/-! ## One byte -/

@[simp] theorem Mem.get_nil (a : Nat) : Mem.get [] a = none := rfl

theorem Mem.get_set (m : Mem) (a a' : Nat) (b : Byte) :
    (m.set a b).get a' = if a' = a then some b else m.get a' := by
  induction m with
  | nil => simp only [Mem.set, Mem.get]; split <;> split <;> simp_all
  | cons c m ih =>
    obtain ⟨k, v⟩ := c
    simp only [Mem.set]
    split
    · simp only [Mem.get]; grind
    · split
      · simp only [Mem.get]; grind
      · simp only [Mem.get, ih]; grind

theorem Mem.get_undefine (m : Mem) (p : Nat → Bool) (a : Nat) :
    (m.undefine p).get a = if p a = true then none else m.get a := by
  induction m with
  | nil => simp [Mem.undefine]
  | cons c m ih =>
    obtain ⟨k, v⟩ := c
    simp only [Mem.undefine, List.filter_cons] at ih ⊢
    by_cases hk : p k = true
    · simp only [hk, Bool.not_true, Bool.false_eq_true, if_false, ih, Mem.get]; grind
    · simp only [hk, Bool.not_false, if_true, Mem.get, ih]; grind

/-! ## The canonical form -/

theorem Mem.mem_set {m : Mem} {a : Nat} {b : Byte} {c : Host.Cell} (h : c ∈ m.set a b) : c = (a, b) ∨ c ∈ m := by
  induction m with
  | nil => simpa [Mem.set] using h
  | cons x m ih =>
    simp only [Mem.set] at h
    split at h
    · simpa using h
    · split at h
      · rcases List.mem_cons.1 h with h | h
        · exact .inl h
        · exact .inr (List.mem_cons_of_mem _ h)
      · rcases List.mem_cons.1 h with h | h
        · exact .inr (by simp [h])
        · exact (ih h).imp_right (List.mem_cons_of_mem _)

theorem Mem.set_wf {m : Mem} (h : m.wf) (a : Nat) (b : Byte) : (m.set a b).wf := by
  induction m with
  | nil => simp [Mem.set]
  | cons x m ih =>
    obtain ⟨hx, hm⟩ := List.pairwise_cons.1 h
    simp only [Mem.set]
    split
    · next hlt =>
      refine List.pairwise_cons.2 ⟨fun c hc => ?_, h⟩
      rcases List.mem_cons.1 hc with rfl | hc
      · exact hlt
      · exact Nat.lt_trans hlt (hx c hc)
    · split
      · next heq => exact List.pairwise_cons.2 ⟨fun c hc => heq ▸ hx c hc, hm⟩
      · refine List.pairwise_cons.2 ⟨fun c hc => ?_, ih hm⟩
        rcases Mem.mem_set hc with rfl | hc
        · show x.1 < a
          omega
        · exact hx c hc

theorem Mem.undefine_wf {m : Mem} (h : m.wf) (p : Nat → Bool) : (m.undefine p).wf := List.Pairwise.filter _ h

theorem Mem.mem_undefine {m : Mem} {p : Nat → Bool} {c : Host.Cell} (h : c ∈ m.undefine p) : c ∈ m :=
  (List.mem_filter.1 h).1

theorem Mem.write_wf {m : Mem} (h : m.wf) (a n : Nat) (v : BitVec (8 * n)) : (m.write a n v).wf := by
  induction n generalizing m a with
  | zero => exact h
  | succ n ih => exact ih (Mem.set_wf h _ _) _ _

theorem Mem.writeWord_wf {m : Mem} (h : m.wf) (a : Nat) (d : Word) : (m.writeWord a d).wf := Mem.write_wf h a 4 d

theorem Mem.writeBlock_wf {m : Mem} (h : m.wf) (a : Nat) (b : Block) : (m.writeBlock a b).wf := Mem.write_wf h a 16 b

theorem Mem.writeSchedule_wf {m : Mem} (h : m.wf) (a : Nat) (ks : KeySchedule) : (m.writeSchedule a ks).wf :=
  Mem.write_wf h a 176 ks

/-- The reset state's memory has the canonical form. -/
theorem State.reset_mem_wf : State.reset.mem.wf := List.Pairwise.nil

theorem Mem.mem_write {m : Mem} {a n : Nat} {v : BitVec (8 * n)} {c : Host.Cell} (h : c ∈ m.write a n v) :
    c ∈ m ∨ (a ≤ c.1 ∧ c.1 < a + n) := by
  induction n generalizing m a with
  | zero => exact .inl h
  | succ n ih =>
    rcases ih h with h | h
    · rcases Mem.mem_set h with rfl | h
      · right; simp only []; omega
      · exact .inl h
    · right; omega

theorem Mem.writeBlocks_wf {m : Mem} (h : m.wf) (a : Nat) (bs : List Block) : (m.writeBlocks a bs).wf := by
  induction bs generalizing m a with
  | nil => exact h
  | cons b bs ih => exact ih (Mem.write_wf h _ 16 _) _

theorem Mem.mem_writeBlocks {m : Mem} {a : Nat} {bs : List Block} {c : Host.Cell} (h : c ∈ m.writeBlocks a bs) :
    c ∈ m ∨ (a ≤ c.1 ∧ c.1 < a + 16 * bs.length) := by
  induction bs generalizing m a with
  | nil => exact .inl h
  | cons b bs ih =>
    simp only [List.length_cons]
    rcases ih h with h | h
    · rcases Mem.mem_write (n := 16) h with h | h
      · exact .inl h
      · right; omega
    · right; omega

theorem Mem.writePieces_wf {m : Mem} (h : m.wf) (a : Nat) (ps : List Piece) : (m.writePieces a ps).wf := by
  induction ps generalizing m a with
  | nil => exact h
  | cons p ps ih => exact ih (Mem.writeBlocks_wf h _ _) _

theorem Mem.mem_writePieces {m : Mem} {a : Nat} {ps : List Piece} {c : Host.Cell}
    (hp : ∀ p ∈ ps, p.length = 256) (h : c ∈ m.writePieces a ps) :
    c ∈ m ∨ (a ≤ c.1 ∧ c.1 < a + 4096 * ps.length) := by
  induction ps generalizing m a with
  | nil => exact .inl h
  | cons p ps ih =>
    simp only [List.length_cons]
    have hl : p.length = 256 := hp p (by simp)
    rcases ih (fun q hq => hp q (by simp [hq])) h with h | h
    · rcases Mem.mem_writeBlocks h with h | h
      · exact .inl h
      · right; omega
    · right; omega

/-! ## MemRead and MemWrite (R14) -/

theorem Mem.get_write_outside (m : Mem) (a n : Nat) (v : BitVec (8 * n)) (a' : Nat) (h : a' < a ∨ a + n ≤ a') :
    (m.write a n v).get a' = m.get a' := by
  induction n generalizing m a with
  | zero => rfl
  | succ n ih =>
    rw [Mem.write, ih _ _ _ (by omega), Mem.get_set, if_neg (by omega)]

theorem Mem.get_write_inside (m : Mem) (a n : Nat) (v : BitVec (8 * n)) (i : Nat) (h : i < n) :
    (m.write a n v).get (a + i) = some (v.extractLsb' (8 * i) 8) := by
  induction n generalizing m a i with
  | zero => omega
  | succ n ih =>
    rw [Mem.write]
    cases i with
    | zero => rw [Mem.get_write_outside _ _ _ _ _ (by omega), Mem.get_set]; simp
    | succ i =>
      have := ih (m.set a (v.extractLsb' 0 8)) (a + 1) (v.extractLsb' 8 (8 * n)) i (by omega)
      rw [show a + (i + 1) = a + 1 + i by omega, this]
      congr 1
      ext j hj
      simp only [BitVec.getElem_extractLsb', BitVec.getLsbD_extractLsb']
      rw [show 8 * (i + 1) + j = 8 + (8 * i + j) by omega]
      simp only [show 8 * i + j < 8 * n by omega, decide_true, Bool.true_and]

theorem Mem.read_congr {m m' : Mem} {a n : Nat} (h : ∀ i < n, m.get (a + i) = m'.get (a + i)) :
    m.read a n = m'.read a n := by
  induction n generalizing a with
  | zero => rfl
  | succ n ih =>
    have h0 := h 0 (by omega)
    have h1 : m.read (a + 1) n = m'.read (a + 1) n := ih fun i hi => by
      have := h (i + 1) (by omega)
      rwa [show a + (i + 1) = a + 1 + i by omega] at this
    simp only [Mem.read, h1]
    rw [Nat.add_zero] at h0
    rw [h0]

/-- A bit vector is its low byte and the rest. -/
theorem split_low_byte {w : Nat} (v : BitVec (w + 8)) : v = v.extractLsb' 8 w ++ v.extractLsb' 0 8 := by
  ext j hj
  simp only [BitVec.getElem_append, BitVec.getElem_extractLsb']
  split
  · rw [Nat.zero_add]; exact (BitVec.getLsbD_eq_getElem hj).symm
  · rw [show 8 + (j - 8) = j by omega]; exact (BitVec.getLsbD_eq_getElem hj).symm

theorem Mem.read_eq_some_iff (m : Mem) (a n : Nat) (v : BitVec (8 * n)) :
    m.read a n = some v ↔ ∀ i < n, m.get (a + i) = some (v.extractLsb' (8 * i) 8) := by
  induction n generalizing a with
  | zero => simp [Mem.read, BitVec.eq_nil v]
  | succ n ih =>
    have hsplit : v = v.extractLsb' 8 (8 * n) ++ v.extractLsb' 0 8 := split_low_byte (w := 8 * n) v
    constructor
    · intro h
      simp only [Mem.read] at h
      split at h
      · next lo hi hlo hhi =>
        have hv : hi ++ lo = v := Option.some.inj h
        have h1 : hi = v.extractLsb' 8 (8 * n) := by
          subst hv
          ext j hj
          simp only [BitVec.getElem_extractLsb', BitVec.getLsbD_append]
          simp [BitVec.getLsbD_eq_getElem, hj]
        have h0 : lo = v.extractLsb' 0 8 := by
          subst hv
          ext j hj
          simp only [BitVec.getElem_extractLsb', BitVec.getLsbD_append]
          simp [BitVec.getLsbD_eq_getElem, hj]
        intro i hi'
        cases i with
        | zero => simpa [h0] using hlo
        | succ i =>
          have := (ih (a + 1) (v.extractLsb' 8 (8 * n))).1 (h1 ▸ hhi) i (by omega)
          rw [show a + (i + 1) = a + 1 + i by omega, this]
          congr 1
          ext j hj
          simp only [BitVec.getElem_extractLsb', BitVec.getLsbD_extractLsb']
          rw [show 8 * (i + 1) + j = 8 + (8 * i + j) by omega]
          simp only [show 8 * i + j < 8 * n by omega, decide_true, Bool.true_and]
      · simp at h
    · intro h
      have h0 : m.get a = some (v.extractLsb' 0 8) := by simpa using h 0 (by omega)
      have h1 : m.read (a + 1) n = some (v.extractLsb' 8 (8 * n)) := by
        refine (ih _ _).2 fun i hi => ?_
        have := h (i + 1) (by omega)
        rw [show a + 1 + i = a + (i + 1) by omega, this]
        congr 1
        ext j hj
        simp only [BitVec.getElem_extractLsb', BitVec.getLsbD_extractLsb']
        rw [show 8 * (i + 1) + j = 8 + (8 * i + j) by omega]
        simp only [show 8 * i + j < 8 * n by omega, decide_true, Bool.true_and]
      simp only [Mem.read, h0, h1]
      exact congrArg some hsplit.symm

theorem Mem.read_eq_none_iff (m : Mem) (a n : Nat) : m.read a n = none ↔ ∃ i < n, m.get (a + i) = none := by
  induction n generalizing a with
  | zero => simp [Mem.read]
  | succ n ih =>
    have h1 := ih (a + 1)
    simp only [Mem.read]
    constructor
    · intro h
      split at h
      · simp at h
      · next hno =>
        cases hg : m.get a with
        | none => exact ⟨0, by omega, hg⟩
        | some lo =>
          cases hr : m.read (a + 1) n with
          | none =>
            obtain ⟨i, hi, hn⟩ := h1.1 hr
            exact ⟨i + 1, by omega, by rwa [show a + (i + 1) = a + 1 + i by omega]⟩
          | some hi => exact absurd hr (hno _ _ hg)
    · rintro ⟨i, hi, hn⟩
      cases i with
      | zero => simp only [Nat.add_zero] at hn; rw [hn]
      | succ i =>
        have : m.read (a + 1) n = none := h1.2 ⟨i, by omega, by rwa [show a + 1 + i = a + (i + 1) by omega]⟩
        rw [this]
        split
        · next h => simp at h
        · rfl

/-- A read after a write to the same place gives the value written. -/
theorem Mem.read_write_same (m : Mem) (a n : Nat) (v : BitVec (8 * n)) : (m.write a n v).read a n = some v :=
  (Mem.read_eq_some_iff _ _ _ _).2 fun i hi => Mem.get_write_inside m a n v i hi

/-- A write leaves a read of other bytes alone. -/
theorem Mem.read_write_disjoint (m : Mem) (a n : Nat) (v : BitVec (8 * n)) (a' n' : Nat) (h : a' + n' ≤ a ∨ a + n ≤ a') :
    (m.write a n v).read a' n' = m.read a' n' :=
  Mem.read_congr fun i hi => Mem.get_write_outside m a n v _ (by omega)

/-! ## Blocks -/

theorem Mem.get_writeBlocks_outside (m : Mem) (a : Nat) (bs : List Block) (a' : Nat)
    (h : a' < a ∨ a + 16 * bs.length ≤ a') : (m.writeBlocks a bs).get a' = m.get a' := by
  induction bs generalizing m a with
  | nil => rfl
  | cons b bs ih =>
    simp only [List.length_cons] at h
    rw [Mem.writeBlocks, ih _ _ (by omega)]
    exact Mem.get_write_outside m a 16 b a' (by omega)

theorem Mem.readBlock_congr {m m' : Mem} {a : Nat} (h : ∀ i < 16, m.get (a + i) = m'.get (a + i)) :
    m.readBlock a = m'.readBlock a := Mem.read_congr h

theorem Mem.readBlock_writeBlock_same (m : Mem) (a : Nat) (b : Block) : (m.writeBlock a b).readBlock a = some b :=
  Mem.read_write_same m a 16 b

theorem Mem.readBlock_writeBlocks (m : Mem) (a : Nat) (bs : List Block) (k : Nat) (hk : k < bs.length) :
    (m.writeBlocks a bs).readBlock (a + 16 * k) = some bs[k] := by
  induction bs generalizing m a k with
  | nil => simp at hk
  | cons b bs ih =>
    rw [Mem.writeBlocks]
    cases k with
    | zero =>
      have h : ∀ i < 16, ((m.writeBlock a b).writeBlocks (a + 16) bs).get (a + i) = (m.writeBlock a b).get (a + i) :=
        fun i hi => Mem.get_writeBlocks_outside _ _ _ _ (by omega)
      exact (Mem.readBlock_congr h).trans (Mem.readBlock_writeBlock_same m a b)
    | succ k =>
      have := ih (m.writeBlock a b) (a + 16) k (by simpa using hk)
      rw [show a + 16 * (k + 1) = a + 16 + 16 * k by omega, this]; rfl

/-- A Block read outside the Blocks written is as before. -/
theorem Mem.readBlock_writeBlocks_outside (m : Mem) (a : Nat) (bs : List Block) (a' : Nat)
    (h : a' + 16 ≤ a ∨ a + 16 * bs.length ≤ a') : (m.writeBlocks a bs).readBlock a' = m.readBlock a' :=
  Mem.readBlock_congr fun i hi => Mem.get_writeBlocks_outside m a bs _ (by omega)

/-- What reading `n` Blocks gives: the Block at each place. -/
theorem Mem.readBlocks_eq_some_iff (m : Mem) (a n : Nat) (bs : List Block) :
    m.readBlocks a n = some bs ↔ bs.length = n ∧ ∀ k (hk : k < bs.length), m.readBlock (a + 16 * k) = some bs[k] := by
  induction n generalizing a bs with
  | zero =>
    simp only [Mem.readBlocks]
    constructor
    · intro h
      have : bs = [] := (Option.some.inj h).symm
      subst this
      simp
    · rintro ⟨h, -⟩
      rw [List.length_eq_zero_iff.1 h]
  | succ n ih =>
    simp only [Mem.readBlocks]
    constructor
    · intro h
      split at h
      · next b bs' hb hbs =>
        obtain ⟨hl, hall⟩ := (ih _ _).1 hbs
        have : bs = b :: bs' := (Option.some.inj h).symm
        subst this
        refine ⟨by simp [hl], fun k hk => ?_⟩
        cases k with
        | zero => simpa using hb
        | succ k =>
          have := hall k (by simpa using hk)
          rw [show a + 16 * (k + 1) = a + 16 + 16 * k by omega, this]; rfl
      · simp at h
    · rintro ⟨hl, hall⟩
      cases bs with
      | nil => simp at hl
      | cons b bs =>
        have h0 : m.readBlock a = some b := hall 0 (by simp)
        have h1 : m.readBlocks (a + 16) n = some bs := by
          refine (ih _ _).2 ⟨by simpa using hl, fun k hk => ?_⟩
          have := hall (k + 1) (by simpa using hk)
          rw [show a + 16 + 16 * k = a + 16 * (k + 1) by omega, this]; rfl
        rw [h0, h1]

/-- Reading `n` Blocks fails exactly when one of their bytes is undefined. -/
theorem Mem.readBlocks_eq_none_iff (m : Mem) (a n : Nat) :
    m.readBlocks a n = none ↔ ∃ i < 16 * n, m.get (a + i) = none := by
  induction n generalizing a with
  | zero => simp [Mem.readBlocks]
  | succ n ih =>
    have h0 : m.readBlock a = none ↔ ∃ i < 16, m.get (a + i) = none := Mem.read_eq_none_iff m a 16
    have h1 := ih (a + 16)
    simp only [Mem.readBlocks]
    constructor
    · intro h
      split at h
      · simp at h
      · next hno =>
        cases hg : m.readBlock a with
        | none =>
          obtain ⟨i, hi, hn⟩ := h0.1 hg
          exact ⟨i, by omega, hn⟩
        | some b =>
          cases hr : m.readBlocks (a + 16) n with
          | none =>
            obtain ⟨i, hi, hn⟩ := h1.1 hr
            exact ⟨i + 16, by omega, by rwa [show a + (i + 16) = a + 16 + i by omega]⟩
          | some bs => exact absurd hr (hno _ _ hg)
    · rintro ⟨i, hi, hn⟩
      by_cases h16 : i < 16
      · rw [h0.2 ⟨i, h16, hn⟩]
      · have : m.readBlocks (a + 16) n = none :=
          h1.2 ⟨i - 16, by omega, by rwa [show a + 16 + (i - 16) = a + i by omega]⟩
        rw [this]
        split
        · next h => simp at h
        · rfl

theorem Mem.readBlocks_length {m : Mem} {a n : Nat} {bs : List Block} (h : m.readBlocks a n = some bs) : bs.length = n :=
  ((Mem.readBlocks_eq_some_iff m a n bs).1 h).1

theorem Mem.readBlocks_congr {m m' : Mem} {a n : Nat} (h : ∀ i < 16 * n, m.get (a + i) = m'.get (a + i)) :
    m.readBlocks a n = m'.readBlocks a n := by
  induction n generalizing a with
  | zero => rfl
  | succ n ih =>
    have h0 : m.readBlock a = m'.readBlock a := Mem.readBlock_congr fun i hi => h i (by omega)
    have h1 : m.readBlocks (a + 16) n = m'.readBlocks (a + 16) n := ih fun i hi => by
      have := h (i + 16) (by omega)
      rwa [show a + (i + 16) = a + 16 + i by omega] at this
    simp only [Mem.readBlocks, h0, h1]

/-- Blocks written and read back. -/
theorem Mem.readBlocks_writeBlocks_same (m : Mem) (a : Nat) (bs : List Block) :
    (m.writeBlocks a bs).readBlocks a bs.length = some bs :=
  (Mem.readBlocks_eq_some_iff _ _ _ _).2 ⟨rfl, fun k hk => Mem.readBlock_writeBlocks m a bs k hk⟩

/-! ## Pieces -/

theorem Mem.get_writePieces_outside (m : Mem) (a : Nat) (ps : List Piece) (hp : ∀ p ∈ ps, p.length = 256) (a' : Nat)
    (h : a' < a ∨ a + 4096 * ps.length ≤ a') : (m.writePieces a ps).get a' = m.get a' := by
  induction ps generalizing m a with
  | nil => rfl
  | cons p ps ih =>
    simp only [List.length_cons] at h
    have hl : p.length = 256 := hp p (by simp)
    rw [Mem.writePieces, ih _ _ (fun q hq => hp q (by simp [hq])) (by omega)]
    exact Mem.get_writeBlocks_outside m a p a' (by omega)

theorem Mem.readPiece_writePieces (m : Mem) (a : Nat) (ps : List Piece) (hp : ∀ p ∈ ps, p.length = 256) (j : Nat)
    (hj : j < ps.length) : (m.writePieces a ps).readBlocks (a + 4096 * j) 256 = some ps[j] := by
  induction ps generalizing m a j with
  | nil => simp at hj
  | cons p ps ih =>
    have hp' : ∀ q ∈ ps, q.length = 256 := fun q hq => hp q (by simp [hq])
    have hl : p.length = 256 := hp p (by simp)
    rw [Mem.writePieces]
    cases j with
    | zero =>
      have h : ∀ i < 16 * 256, ((m.writeBlocks a p).writePieces (a + 4096) ps).get (a + i) = (m.writeBlocks a p).get (a + i) :=
        fun i hi => Mem.get_writePieces_outside _ _ _ hp' _ (by omega)
      exact (Mem.readBlocks_congr h).trans (hl ▸ Mem.readBlocks_writeBlocks_same m a p)
    | succ j =>
      have := ih (m.writeBlocks a p) (a + 4096) hp' j (by simpa using hj)
      rw [show a + 4096 * (j + 1) = a + 4096 + 4096 * j by omega, this]; rfl

/-- What reading `n` Pieces gives: the Piece in each slot. -/
theorem Mem.readPieces_eq_some_iff (m : Mem) (a n : Nat) (ps : List Piece) :
    m.readPieces a n = some ps ↔
      ps.length = n ∧ ∀ j (hj : j < ps.length), m.readBlocks (a + 4096 * j) 256 = some ps[j] := by
  induction n generalizing a ps with
  | zero =>
    simp only [Mem.readPieces]
    constructor
    · intro h
      have : ps = [] := (Option.some.inj h).symm
      subst this
      simp
    · rintro ⟨h, -⟩
      rw [List.length_eq_zero_iff.1 h]
  | succ n ih =>
    simp only [Mem.readPieces]
    constructor
    · intro h
      split at h
      · next p ps' hb hbs =>
        obtain ⟨hl, hall⟩ := (ih _ _).1 hbs
        have : ps = p :: ps' := (Option.some.inj h).symm
        subst this
        refine ⟨by simp [hl], fun k hk => ?_⟩
        cases k with
        | zero => simpa using hb
        | succ k =>
          have := hall k (by simpa using hk)
          rw [show a + 4096 * (k + 1) = a + 4096 + 4096 * k by omega, this]; rfl
      · simp at h
    · rintro ⟨hl, hall⟩
      cases ps with
      | nil => simp at hl
      | cons p ps =>
        have h0 : m.readBlocks a 256 = some p := hall 0 (by simp)
        have h1 : m.readPieces (a + 4096) n = some ps := by
          refine (ih _ _).2 ⟨by simpa using hl, fun k hk => ?_⟩
          have := hall (k + 1) (by simpa using hk)
          rw [show a + 4096 + 4096 * k = a + 4096 * (k + 1) by omega, this]; rfl
        rw [h0, h1]

/-- Reading `n` Pieces fails exactly when one of their bytes is undefined. -/
theorem Mem.readPieces_eq_none_iff (m : Mem) (a n : Nat) :
    m.readPieces a n = none ↔ ∃ i < 4096 * n, m.get (a + i) = none := by
  induction n generalizing a with
  | zero => simp [Mem.readPieces]
  | succ n ih =>
    have h0 := Mem.readBlocks_eq_none_iff m a 256
    have h1 := ih (a + 4096)
    simp only [Mem.readPieces]
    constructor
    · intro h
      split at h
      · simp at h
      · next hno =>
        cases hg : m.readBlocks a 256 with
        | none =>
          obtain ⟨i, hi, hn⟩ := h0.1 hg
          exact ⟨i, by omega, hn⟩
        | some b =>
          cases hr : m.readPieces (a + 4096) n with
          | none =>
            obtain ⟨i, hi, hn⟩ := h1.1 hr
            exact ⟨i + 4096, by omega, by rwa [show a + (i + 4096) = a + 4096 + i by omega]⟩
          | some bs => exact absurd hr (hno _ _ hg)
    · rintro ⟨i, hi, hn⟩
      by_cases h16 : i < 4096
      · rw [h0.2 ⟨i, by omega, hn⟩]
      · have : m.readPieces (a + 4096) n = none :=
          h1.2 ⟨i - 4096, by omega, by rwa [show a + 4096 + (i - 4096) = a + i by omega]⟩
        rw [this]
        split
        · next h => simp at h
        · rfl

/-- Every Piece read has 256 Blocks. -/
theorem Mem.readPieces_lengths {m : Mem} {a n : Nat} {ps : List Piece} (h : m.readPieces a n = some ps) :
    ps.length = n ∧ ∀ p ∈ ps, p.length = 256 := by
  obtain ⟨hl, hall⟩ := (Mem.readPieces_eq_some_iff m a n ps).1 h
  refine ⟨hl, fun p hp => ?_⟩
  obtain ⟨j, hj, rfl⟩ := List.getElem_of_mem hp
  exact Mem.readBlocks_length (hall j hj)

end Sys2Proof.Machine
end

