-- ==== Sys2Proof/Laws/State.lean ====
section
/-! SUPPORT. One lemma per field per update of the state, so that no proof unfolds a record update. -/

namespace Sys2Proof.Machine

variable (s : State)

/-! ### State.setMem -/

@[simp] theorem State.setMem_cfg (m : Mem) : (s.setMem m).cfg = s.cfg := rfl
@[simp] theorem State.setMem_ie (m : Mem) : (s.setMem m).ie = s.ie := rfl
@[simp] theorem State.setMem_busy (m : Mem) : (s.setMem m).busy = s.busy := rfl
@[simp] theorem State.setMem_done (m : Mem) : (s.setMem m).done = s.done := rfl
@[simp] theorem State.setMem_err (m : Mem) : (s.setMem m).err = s.err := rfl
@[simp] theorem State.setMem_vok (m : Mem) : (s.setMem m).vok = s.vok := rfl
@[simp] theorem State.setMem_errcode (m : Mem) : (s.setMem m).errcode = s.errcode := rfl
@[simp] theorem State.setMem_iter (m : Mem) : (s.setMem m).iter = s.iter := rfl
@[simp] theorem State.setMem_breadth (m : Mem) : (s.setMem m).breadth = s.breadth := rfl
@[simp] theorem State.setMem_cur (m : Mem) : (s.setMem m).cur = s.cur := rfl
@[simp] theorem State.setMem_mem (m : Mem) : (s.setMem m).mem = m := rfl
@[simp] theorem State.setMem_inputs (m : Mem) : (s.setMem m).inputs = s.inputs := rfl
@[simp] theorem State.setMem_draws (m : Mem) : (s.setMem m).draws = s.draws := rfl
@[simp] theorem State.setMem_rdata (m : Mem) : (s.setMem m).rdata = s.rdata := rfl

/-! ### State.setIter -/

@[simp] theorem State.setIter_cfg (v : Word) : (s.setIter v).cfg = s.cfg := rfl
@[simp] theorem State.setIter_ie (v : Word) : (s.setIter v).ie = s.ie := rfl
@[simp] theorem State.setIter_busy (v : Word) : (s.setIter v).busy = s.busy := rfl
@[simp] theorem State.setIter_done (v : Word) : (s.setIter v).done = s.done := rfl
@[simp] theorem State.setIter_err (v : Word) : (s.setIter v).err = s.err := rfl
@[simp] theorem State.setIter_vok (v : Word) : (s.setIter v).vok = s.vok := rfl
@[simp] theorem State.setIter_errcode (v : Word) : (s.setIter v).errcode = s.errcode := rfl
@[simp] theorem State.setIter_iter (v : Word) : (s.setIter v).iter = v := rfl
@[simp] theorem State.setIter_breadth (v : Word) : (s.setIter v).breadth = s.breadth := rfl
@[simp] theorem State.setIter_cur (v : Word) : (s.setIter v).cur = s.cur := rfl
@[simp] theorem State.setIter_mem (v : Word) : (s.setIter v).mem = s.mem := rfl
@[simp] theorem State.setIter_inputs (v : Word) : (s.setIter v).inputs = s.inputs := rfl
@[simp] theorem State.setIter_draws (v : Word) : (s.setIter v).draws = s.draws := rfl
@[simp] theorem State.setIter_rdata (v : Word) : (s.setIter v).rdata = s.rdata := rfl

/-! ### State.setBreadth -/

@[simp] theorem State.setBreadth_cfg (v : Word) : (s.setBreadth v).cfg = s.cfg := rfl
@[simp] theorem State.setBreadth_ie (v : Word) : (s.setBreadth v).ie = s.ie := rfl
@[simp] theorem State.setBreadth_busy (v : Word) : (s.setBreadth v).busy = s.busy := rfl
@[simp] theorem State.setBreadth_done (v : Word) : (s.setBreadth v).done = s.done := rfl
@[simp] theorem State.setBreadth_err (v : Word) : (s.setBreadth v).err = s.err := rfl
@[simp] theorem State.setBreadth_vok (v : Word) : (s.setBreadth v).vok = s.vok := rfl
@[simp] theorem State.setBreadth_errcode (v : Word) : (s.setBreadth v).errcode = s.errcode := rfl
@[simp] theorem State.setBreadth_iter (v : Word) : (s.setBreadth v).iter = s.iter := rfl
@[simp] theorem State.setBreadth_breadth (v : Word) : (s.setBreadth v).breadth = v := rfl
@[simp] theorem State.setBreadth_cur (v : Word) : (s.setBreadth v).cur = s.cur := rfl
@[simp] theorem State.setBreadth_mem (v : Word) : (s.setBreadth v).mem = s.mem := rfl
@[simp] theorem State.setBreadth_inputs (v : Word) : (s.setBreadth v).inputs = s.inputs := rfl
@[simp] theorem State.setBreadth_draws (v : Word) : (s.setBreadth v).draws = s.draws := rfl
@[simp] theorem State.setBreadth_rdata (v : Word) : (s.setBreadth v).rdata = s.rdata := rfl

/-! ### State.setIe -/

@[simp] theorem State.setIe_cfg (b : Bool) : (s.setIe b).cfg = s.cfg := rfl
@[simp] theorem State.setIe_ie (b : Bool) : (s.setIe b).ie = b := rfl
@[simp] theorem State.setIe_busy (b : Bool) : (s.setIe b).busy = s.busy := rfl
@[simp] theorem State.setIe_done (b : Bool) : (s.setIe b).done = s.done := rfl
@[simp] theorem State.setIe_err (b : Bool) : (s.setIe b).err = s.err := rfl
@[simp] theorem State.setIe_vok (b : Bool) : (s.setIe b).vok = s.vok := rfl
@[simp] theorem State.setIe_errcode (b : Bool) : (s.setIe b).errcode = s.errcode := rfl
@[simp] theorem State.setIe_iter (b : Bool) : (s.setIe b).iter = s.iter := rfl
@[simp] theorem State.setIe_breadth (b : Bool) : (s.setIe b).breadth = s.breadth := rfl
@[simp] theorem State.setIe_cur (b : Bool) : (s.setIe b).cur = s.cur := rfl
@[simp] theorem State.setIe_mem (b : Bool) : (s.setIe b).mem = s.mem := rfl
@[simp] theorem State.setIe_inputs (b : Bool) : (s.setIe b).inputs = s.inputs := rfl
@[simp] theorem State.setIe_draws (b : Bool) : (s.setIe b).draws = s.draws := rfl
@[simp] theorem State.setIe_rdata (b : Bool) : (s.setIe b).rdata = s.rdata := rfl

/-! ### State.setVok -/

@[simp] theorem State.setVok_cfg (b : Bool) : (s.setVok b).cfg = s.cfg := rfl
@[simp] theorem State.setVok_ie (b : Bool) : (s.setVok b).ie = s.ie := rfl
@[simp] theorem State.setVok_busy (b : Bool) : (s.setVok b).busy = s.busy := rfl
@[simp] theorem State.setVok_done (b : Bool) : (s.setVok b).done = s.done := rfl
@[simp] theorem State.setVok_err (b : Bool) : (s.setVok b).err = s.err := rfl
@[simp] theorem State.setVok_vok (b : Bool) : (s.setVok b).vok = b := rfl
@[simp] theorem State.setVok_errcode (b : Bool) : (s.setVok b).errcode = s.errcode := rfl
@[simp] theorem State.setVok_iter (b : Bool) : (s.setVok b).iter = s.iter := rfl
@[simp] theorem State.setVok_breadth (b : Bool) : (s.setVok b).breadth = s.breadth := rfl
@[simp] theorem State.setVok_cur (b : Bool) : (s.setVok b).cur = s.cur := rfl
@[simp] theorem State.setVok_mem (b : Bool) : (s.setVok b).mem = s.mem := rfl
@[simp] theorem State.setVok_inputs (b : Bool) : (s.setVok b).inputs = s.inputs := rfl
@[simp] theorem State.setVok_draws (b : Bool) : (s.setVok b).draws = s.draws := rfl
@[simp] theorem State.setVok_rdata (b : Bool) : (s.setVok b).rdata = s.rdata := rfl

/-! ### State.clearDone -/

@[simp] theorem State.clearDone_cfg : s.clearDone.cfg = s.cfg := rfl
@[simp] theorem State.clearDone_ie : s.clearDone.ie = s.ie := rfl
@[simp] theorem State.clearDone_busy : s.clearDone.busy = s.busy := rfl
@[simp] theorem State.clearDone_done : s.clearDone.done = false := rfl
@[simp] theorem State.clearDone_err : s.clearDone.err = s.err := rfl
@[simp] theorem State.clearDone_vok : s.clearDone.vok = s.vok := rfl
@[simp] theorem State.clearDone_errcode : s.clearDone.errcode = s.errcode := rfl
@[simp] theorem State.clearDone_iter : s.clearDone.iter = s.iter := rfl
@[simp] theorem State.clearDone_breadth : s.clearDone.breadth = s.breadth := rfl
@[simp] theorem State.clearDone_cur : s.clearDone.cur = s.cur := rfl
@[simp] theorem State.clearDone_mem : s.clearDone.mem = s.mem := rfl
@[simp] theorem State.clearDone_inputs : s.clearDone.inputs = s.inputs := rfl
@[simp] theorem State.clearDone_draws : s.clearDone.draws = s.draws := rfl
@[simp] theorem State.clearDone_rdata : s.clearDone.rdata = s.rdata := rfl

/-! ### State.reject -/

@[simp] theorem State.reject_cfg (e : ErrCode) : (s.reject e).cfg = s.cfg := rfl
@[simp] theorem State.reject_ie (e : ErrCode) : (s.reject e).ie = s.ie := rfl
@[simp] theorem State.reject_busy (e : ErrCode) : (s.reject e).busy = s.busy := rfl
@[simp] theorem State.reject_done (e : ErrCode) : (s.reject e).done = s.done := rfl
@[simp] theorem State.reject_err (e : ErrCode) : (s.reject e).err = true := rfl
@[simp] theorem State.reject_vok (e : ErrCode) : (s.reject e).vok = s.vok := rfl
@[simp] theorem State.reject_errcode (e : ErrCode) : (s.reject e).errcode = e.code := rfl
@[simp] theorem State.reject_iter (e : ErrCode) : (s.reject e).iter = s.iter := rfl
@[simp] theorem State.reject_breadth (e : ErrCode) : (s.reject e).breadth = s.breadth := rfl
@[simp] theorem State.reject_cur (e : ErrCode) : (s.reject e).cur = s.cur := rfl
@[simp] theorem State.reject_mem (e : ErrCode) : (s.reject e).mem = s.mem := rfl
@[simp] theorem State.reject_inputs (e : ErrCode) : (s.reject e).inputs = s.inputs := rfl
@[simp] theorem State.reject_draws (e : ErrCode) : (s.reject e).draws = s.draws := rfl
@[simp] theorem State.reject_rdata (e : ErrCode) : (s.reject e).rdata = s.rdata := rfl

/-! ### State.acknowledge -/

@[simp] theorem State.acknowledge_cfg : s.acknowledge.cfg = s.cfg := rfl
@[simp] theorem State.acknowledge_ie : s.acknowledge.ie = s.ie := rfl
@[simp] theorem State.acknowledge_busy : s.acknowledge.busy = s.busy := rfl
@[simp] theorem State.acknowledge_done : s.acknowledge.done = s.done := rfl
@[simp] theorem State.acknowledge_err : s.acknowledge.err = false := rfl
@[simp] theorem State.acknowledge_vok : s.acknowledge.vok = s.vok := rfl
@[simp] theorem State.acknowledge_errcode : s.acknowledge.errcode = 0 := rfl
@[simp] theorem State.acknowledge_iter : s.acknowledge.iter = s.iter := rfl
@[simp] theorem State.acknowledge_breadth : s.acknowledge.breadth = s.breadth := rfl
@[simp] theorem State.acknowledge_cur : s.acknowledge.cur = s.cur := rfl
@[simp] theorem State.acknowledge_mem : s.acknowledge.mem = s.mem := rfl
@[simp] theorem State.acknowledge_inputs : s.acknowledge.inputs = s.inputs := rfl
@[simp] theorem State.acknowledge_draws : s.acknowledge.draws = s.draws := rfl
@[simp] theorem State.acknowledge_rdata : s.acknowledge.rdata = s.rdata := rfl

/-! ### State.accept -/

@[simp] theorem State.accept_cfg (d : Word) : (s.accept d).cfg = s.cfg := rfl
@[simp] theorem State.accept_ie (d : Word) : (s.accept d).ie = s.ie := rfl
@[simp] theorem State.accept_busy (d : Word) : (s.accept d).busy = true := rfl
@[simp] theorem State.accept_done (d : Word) : (s.accept d).done = s.done := rfl
@[simp] theorem State.accept_err (d : Word) : (s.accept d).err = s.err := rfl
@[simp] theorem State.accept_vok (d : Word) : (s.accept d).vok = false := rfl
@[simp] theorem State.accept_errcode (d : Word) : (s.accept d).errcode = s.errcode := rfl
@[simp] theorem State.accept_iter (d : Word) : (s.accept d).iter = s.iter := rfl
@[simp] theorem State.accept_breadth (d : Word) : (s.accept d).breadth = s.breadth := rfl
@[simp] theorem State.accept_cur (d : Word) : (s.accept d).cur = d := rfl
@[simp] theorem State.accept_mem (d : Word) : (s.accept d).mem = s.mem := rfl
@[simp] theorem State.accept_inputs (d : Word) : (s.accept d).inputs = s.inputs := rfl
@[simp] theorem State.accept_draws (d : Word) : (s.accept d).draws = s.draws := rfl
@[simp] theorem State.accept_rdata (d : Word) : (s.accept d).rdata = s.rdata := rfl

/-! ### State.finish -/

@[simp] theorem State.finish_cfg : s.finish.cfg = s.cfg := rfl
@[simp] theorem State.finish_ie : s.finish.ie = s.ie := rfl
@[simp] theorem State.finish_busy : s.finish.busy = false := rfl
@[simp] theorem State.finish_done : s.finish.done = true := rfl
@[simp] theorem State.finish_err : s.finish.err = s.err := rfl
@[simp] theorem State.finish_vok : s.finish.vok = s.vok := rfl
@[simp] theorem State.finish_errcode : s.finish.errcode = s.errcode := rfl
@[simp] theorem State.finish_iter : s.finish.iter = s.iter := rfl
@[simp] theorem State.finish_breadth : s.finish.breadth = s.breadth := rfl
@[simp] theorem State.finish_cur : s.finish.cur = s.cur := rfl
@[simp] theorem State.finish_mem : s.finish.mem = s.mem := rfl
@[simp] theorem State.finish_inputs : s.finish.inputs = s.inputs := rfl
@[simp] theorem State.finish_draws : s.finish.draws = s.draws := rfl
@[simp] theorem State.finish_rdata : s.finish.rdata = s.rdata := rfl

/-! ### State.answer -/

@[simp] theorem State.answer_cfg (w : Word) : (s.answer w).cfg = s.cfg := rfl
@[simp] theorem State.answer_ie (w : Word) : (s.answer w).ie = s.ie := rfl
@[simp] theorem State.answer_busy (w : Word) : (s.answer w).busy = s.busy := rfl
@[simp] theorem State.answer_done (w : Word) : (s.answer w).done = s.done := rfl
@[simp] theorem State.answer_err (w : Word) : (s.answer w).err = s.err := rfl
@[simp] theorem State.answer_vok (w : Word) : (s.answer w).vok = s.vok := rfl
@[simp] theorem State.answer_errcode (w : Word) : (s.answer w).errcode = s.errcode := rfl
@[simp] theorem State.answer_iter (w : Word) : (s.answer w).iter = s.iter := rfl
@[simp] theorem State.answer_breadth (w : Word) : (s.answer w).breadth = s.breadth := rfl
@[simp] theorem State.answer_cur (w : Word) : (s.answer w).cur = s.cur := rfl
@[simp] theorem State.answer_mem (w : Word) : (s.answer w).mem = s.mem := rfl
@[simp] theorem State.answer_inputs (w : Word) : (s.answer w).inputs = s.inputs := rfl
@[simp] theorem State.answer_draws (w : Word) : (s.answer w).draws = s.draws := rfl
@[simp] theorem State.answer_rdata (w : Word) : (s.answer w).rdata = some w := rfl

/-! ### State.drawn -/

@[simp] theorem State.drawn_cfg : s.drawn.cfg = s.cfg := rfl
@[simp] theorem State.drawn_ie : s.drawn.ie = s.ie := rfl
@[simp] theorem State.drawn_busy : s.drawn.busy = s.busy := rfl
@[simp] theorem State.drawn_done : s.drawn.done = s.done := rfl
@[simp] theorem State.drawn_err : s.drawn.err = s.err := rfl
@[simp] theorem State.drawn_vok : s.drawn.vok = s.vok := rfl
@[simp] theorem State.drawn_errcode : s.drawn.errcode = s.errcode := rfl
@[simp] theorem State.drawn_iter : s.drawn.iter = s.iter := rfl
@[simp] theorem State.drawn_breadth : s.drawn.breadth = s.breadth := rfl
@[simp] theorem State.drawn_cur : s.drawn.cur = s.cur := rfl
@[simp] theorem State.drawn_mem : s.drawn.mem = s.mem := rfl
@[simp] theorem State.drawn_inputs : s.drawn.inputs = s.inputs := rfl
@[simp] theorem State.drawn_draws : s.drawn.draws = s.draws + 1 := rfl
@[simp] theorem State.drawn_rdata : s.drawn.rdata = s.rdata := rfl

/-! ### State.drawUnspecified -/

@[simp] theorem State.drawUnspecified_cfg : s.drawUnspecified.cfg = s.cfg := rfl
@[simp] theorem State.drawUnspecified_ie : s.drawUnspecified.ie = s.ie := rfl
@[simp] theorem State.drawUnspecified_busy : s.drawUnspecified.busy = s.busy := rfl
@[simp] theorem State.drawUnspecified_done : s.drawUnspecified.done = s.done := rfl
@[simp] theorem State.drawUnspecified_err : s.drawUnspecified.err = s.err := rfl
@[simp] theorem State.drawUnspecified_vok : s.drawUnspecified.vok = s.vok := rfl
@[simp] theorem State.drawUnspecified_errcode : s.drawUnspecified.errcode = s.errcode := rfl
@[simp] theorem State.drawUnspecified_iter : s.drawUnspecified.iter = s.iter := rfl
@[simp] theorem State.drawUnspecified_breadth : s.drawUnspecified.breadth = s.breadth := rfl
@[simp] theorem State.drawUnspecified_cur : s.drawUnspecified.cur = s.cur := rfl
@[simp] theorem State.drawUnspecified_mem : s.drawUnspecified.mem = s.mem := rfl
@[simp] theorem State.drawUnspecified_inputs : s.drawUnspecified.inputs = s.inputs := rfl
@[simp] theorem State.drawUnspecified_draws : s.drawUnspecified.draws = s.draws + 1 := rfl
@[simp] theorem State.drawUnspecified_rdata : s.drawUnspecified.rdata = some (Config.unspecifiedWord s.cfg.baseIndex s.draws) :=
    rfl

/-! ### State.setInputs -/

@[simp] theorem State.setInputs_cfg (is : List Input) : (s.setInputs is).cfg = s.cfg := rfl
@[simp] theorem State.setInputs_ie (is : List Input) : (s.setInputs is).ie = s.ie := rfl
@[simp] theorem State.setInputs_busy (is : List Input) : (s.setInputs is).busy = s.busy := rfl
@[simp] theorem State.setInputs_done (is : List Input) : (s.setInputs is).done = s.done := rfl
@[simp] theorem State.setInputs_err (is : List Input) : (s.setInputs is).err = s.err := rfl
@[simp] theorem State.setInputs_vok (is : List Input) : (s.setInputs is).vok = s.vok := rfl
@[simp] theorem State.setInputs_errcode (is : List Input) : (s.setInputs is).errcode = s.errcode := rfl
@[simp] theorem State.setInputs_iter (is : List Input) : (s.setInputs is).iter = s.iter := rfl
@[simp] theorem State.setInputs_breadth (is : List Input) : (s.setInputs is).breadth = s.breadth := rfl
@[simp] theorem State.setInputs_cur (is : List Input) : (s.setInputs is).cur = s.cur := rfl
@[simp] theorem State.setInputs_mem (is : List Input) : (s.setInputs is).mem = s.mem := rfl
@[simp] theorem State.setInputs_inputs (is : List Input) : (s.setInputs is).inputs = is := rfl
@[simp] theorem State.setInputs_draws (is : List Input) : (s.setInputs is).draws = s.draws := rfl
@[simp] theorem State.setInputs_rdata (is : List Input) : (s.setInputs is).rdata = s.rdata := rfl

/-! ### State.resetControl -/

@[simp] theorem State.resetControl_cfg : s.resetControl.cfg = s.cfg := rfl
@[simp] theorem State.resetControl_ie : s.resetControl.ie = false := rfl
@[simp] theorem State.resetControl_busy : s.resetControl.busy = false := rfl
@[simp] theorem State.resetControl_done : s.resetControl.done = false := rfl
@[simp] theorem State.resetControl_err : s.resetControl.err = false := rfl
@[simp] theorem State.resetControl_vok : s.resetControl.vok = false := rfl
@[simp] theorem State.resetControl_errcode : s.resetControl.errcode = 0 := rfl
@[simp] theorem State.resetControl_iter : s.resetControl.iter = 0 := rfl
@[simp] theorem State.resetControl_breadth : s.resetControl.breadth = 1 := rfl
@[simp] theorem State.resetControl_cur : s.resetControl.cur = s.cur := rfl
@[simp] theorem State.resetControl_mem : s.resetControl.mem = s.mem := rfl
@[simp] theorem State.resetControl_inputs : s.resetControl.inputs = s.inputs := rfl
@[simp] theorem State.resetControl_draws : s.resetControl.draws = s.draws := rfl
@[simp] theorem State.resetControl_rdata : s.resetControl.rdata = s.rdata := rfl

/-! ### State.loadCommand -/

@[simp] theorem State.loadCommand_cfg (d : Word) : (s.loadCommand d).cfg = s.cfg := rfl
@[simp] theorem State.loadCommand_ie (d : Word) : (s.loadCommand d).ie = s.ie := rfl
@[simp] theorem State.loadCommand_busy (d : Word) : (s.loadCommand d).busy = true := rfl
@[simp] theorem State.loadCommand_done (d : Word) : (s.loadCommand d).done = s.done := rfl
@[simp] theorem State.loadCommand_err (d : Word) : (s.loadCommand d).err = s.err := rfl
@[simp] theorem State.loadCommand_vok (d : Word) : (s.loadCommand d).vok = false := rfl
@[simp] theorem State.loadCommand_errcode (d : Word) : (s.loadCommand d).errcode = s.errcode := rfl
@[simp] theorem State.loadCommand_iter (d : Word) : (s.loadCommand d).iter = s.iter := rfl
@[simp] theorem State.loadCommand_breadth (d : Word) : (s.loadCommand d).breadth = s.breadth := rfl
@[simp] theorem State.loadCommand_cur (d : Word) : (s.loadCommand d).cur = d := rfl
@[simp] theorem State.loadCommand_mem (d : Word) : (s.loadCommand d).mem = s.mem := rfl
@[simp] theorem State.loadCommand_inputs (d : Word) : (s.loadCommand d).inputs = .engine :: s.inputs := rfl
@[simp] theorem State.loadCommand_draws (d : Word) : (s.loadCommand d).draws = s.draws := rfl
@[simp] theorem State.loadCommand_rdata (d : Word) : (s.loadCommand d).rdata = s.rdata := rfl

end Sys2Proof.Machine
end

