-- ==== Sys2Proof/Laws/Operations.lean ====
section
/-! SUPPORT. What each shared operation can do, said once: the lemmas the proofs cite instead of unfolding it. -/

namespace Sys2Proof.Machine

/-! ## Completion -/

/-- `needs` goes on with a defined input. -/
@[simp] theorem needs_some {α : Type} (v : α) (k : α → Host.Outcome State Fault Refusal) : needs (some v) k = k v := rfl

/-- `needs` faults on an undefined input (R147). -/
@[simp] theorem needs_none {α : Type} (k : α → Host.Outcome State Fault Refusal) :
    needs none k = .fault .undefinedInput := rfl

/-- If `needs` answers a next state, the input was defined and what follows gave that state. -/
theorem needs_eq_next {α : Type} {o : Option α} {k : α → Host.Outcome State Fault Refusal} {t : State}
    (h : needs o k = .next t) : ∃ v, o = some v ∧ k v = .next t := by
  cases o with
  | none => simp at h
  | some v => exact ⟨v, rfl, h⟩

/-- If `needs` faults, the input was undefined, or what follows faulted. -/
theorem needs_eq_fault {α : Type} {o : Option α} {k : α → Host.Outcome State Fault Refusal} {r : Fault}
    (h : needs o k = .fault r) : (o = none ∧ r = .undefinedInput) ∨ ∃ v, o = some v ∧ k v = .fault r := by
  cases o with
  | none => left; simp at h; exact ⟨rfl, h.symm⟩
  | some v => exact .inr ⟨v, rfl, h⟩

/-- `needs` itself refuses nothing. -/
theorem needs_ne_refused {α : Type} {o : Option α} {k : α → Host.Outcome State Fault Refusal} {r : Refusal}
    (hk : ∀ v, k v ≠ .refused r) : needs o k ≠ .refused r := by
  cases o with
  | none => simp
  | some v => exact hk v

/-! ## Address classes -/

theorem within_eq_true {base size a : Nat} : within base size a = true ↔ base ≤ a ∧ a < base + size := by
  simp [within]

/-- The byte offsets of the data windows an instance has (R82). -/
theorem isData_iff (c : Config) (a : Nat) :
    isData c a = true ↔
      (0x100 ≤ a ∧ a < 0x1B0) ∨ (0x200 ≤ a ∧ a < 0x2B0) ∨ (0x300 ≤ a ∧ a < 0x320) ∨
      (0x400 ≤ a ∧ a < 0x400 + 16 * c.width) ∨ (0x500 ≤ a ∧ a < 0x500 + 16 * c.width) ∨
      (0x600 ≤ a ∧ a < 0x700) ∨ (0x10000 ≤ a ∧ a < 0x10000 + 4096 * c.width) := by
  simp only [isData, dataMap, List.any_cons, List.any_nil, Bool.or_false, Bool.or_eq_true, within_eq_true, ksFwdBase,
    ksInvBase, identBase, seedBase, ivBase, laneBase, proofBase, pieceBase]
  omega

/-- W is 1, 4, 8 or 12 (R2). -/
theorem Config.width_cases (c : Config) : c.width = 1 ∨ c.width = 4 ∨ c.width = 8 ∨ c.width = 12 := by
  rcases c with ⟨v⟩
  cases v <;> simp [Config.width, Variant.width]

/-- No slot a command works on lies beyond W. -/
theorem slots_le_width (c : Config) (n : BitVec 4) : slots c n ≤ c.width := Nat.min_le_right _ _

/-! ## Launch -/

/-- All that launch can do (R140): refuse, reject or accept. -/
theorem launch_cases (d : Word) (s : State) :
    (s.busy = true ∧ launch d s = s.reject .busy) ∨
    (s.busy = false ∧ ∃ e, check s d = some e ∧ launch d s = s.reject e) ∨
    (s.busy = false ∧ check s d = none ∧ launch d s = s.accept d) := by
  unfold launch
  cases hb : s.busy
  · cases hc : check s d with
    | none => exact .inr (.inr ⟨rfl, rfl, by simp⟩)
    | some e => exact .inr (.inl ⟨rfl, e, rfl, by simp⟩)
  · exact .inl ⟨rfl, by simp⟩

/-- A word passes Check exactly when it decodes to a command whose own checks all pass (R144). -/
theorem check_eq_none_iff (s : State) (d : Word) :
    check s d = none ↔ ∃ i, decode d = .ok i ∧ instrError s i = none := by
  unfold check
  cases h : decode d with
  | ok i => simp
  | error e => cases e <;> simp

/-- Check reads the configuration, ITER and BREADTH only (R144). -/
theorem check_congr {s t : State} (hc : t.cfg = s.cfg) (hi : t.iter = s.iter) (hb : t.breadth = s.breadth) (d : Word) :
    check t d = check s d := by
  have h : ∀ i, instrError t i = instrError s i := by
    intro i
    cases s
    cases t
    subst hc hi hb
    cases i <;> rfl
  simp only [check, h]

/-! ## The bus -/

/-- All that a refused-while-busy write can do (R55). -/
theorem whenIdle_cases (s t : State) :
    (s.busy = true ∧ s.whenIdle t = s.reject .busy) ∨ (s.busy = false ∧ s.whenIdle t = t) := by
  unfold State.whenIdle
  cases s.busy <;> simp

/-- All that reading a data-window word can do (R53, R55). -/
theorem readData_cases (off : Nat) (s : State) :
    (s.busy = true ∧ inRunningWriteSet s off = true ∧
      readData off s = .next s.drawUnspecified) ∨
    (∃ w, s.mem.readWord off = some w ∧ readData off s = .next (s.answer w)) ∨
    (s.mem.readWord off = none ∧ readData off s = .fault .undefinedRead) := by
  unfold readData
  by_cases h : (s.busy && inRunningWriteSet s off) = true
  · simp only [Bool.and_eq_true] at h
    exact .inl ⟨h.1, h.2, by simp [h]⟩
  · right
    simp only [h]
    cases hw : s.mem.readWord off with
    | none => exact .inr ⟨rfl, by simp⟩
    | some w => exact .inl ⟨w, rfl, by simp⟩

/-- A host read changes nothing but what the host has received and, for an unspecified word, the count of draws (R86). -/
theorem hostRead_frame {wa : BitVec 15} {s t : State} (h : hostRead wa s = .next t) :
    (∃ w, t = s.answer w) ∨ (s.busy = true ∧ t = s.drawUnspecified) := by
  unfold hostRead at h
  split at h
  case h_8 =>
    rcases readData_cases (byteOffset wa) s with ⟨hb, -, he⟩ | ⟨w, -, he⟩ | ⟨-, he⟩
    · rw [he] at h; injection h with h; exact .inr ⟨hb, h.symm⟩
    · rw [he] at h; injection h with h; exact .inl ⟨w, h.symm⟩
    · rw [he] at h; cases h
  all_goals (injection h with h; exact .inl ⟨_, h.symm⟩)

/-- Abandoning a command leaves everything but memory alone. -/
theorem abandon_frame (s : State) : ∃ m, s.abandon = s.setMem m ∧
    ∀ a, m.get a = s.mem.get a ∨
      (m.get a = none ∧ s.busy = true ∧ ∃ i, decode s.cur = .ok i ∧ writeSet s.cfg i a = true) := by
  unfold State.abandon
  cases hb : s.busy
  · exact ⟨s.mem, by simp [State.setMem], fun a => .inl rfl⟩
  · simp only [if_true]
    cases hd : decode s.cur with
    | error e => exact ⟨s.mem, by simp [State.setMem], fun a => .inl rfl⟩
    | ok i =>
      refine ⟨s.mem.undefine (writeSet s.cfg i), rfl, fun a => ?_⟩
      rw [Mem.get_undefine]
      by_cases h : writeSet s.cfg i a = true
      · exact .inr ⟨by simp [h], by trivial, i, rfl, h⟩
      · exact .inl (by simp [h])

/-- All that a step can be: the engine's turn, a transaction, an offered access or a hard reset, each with its input
taken away (R89). -/
theorem takeTurn_cases (s : State) :
    (s.inputs = [] ∧ takeTurn s = engineTurn s) ∨
    ∃ i rest, s.inputs = i :: rest ∧
      ((i = .engine ∧ takeTurn s = engineTurn (s.setInputs rest)) ∨
       (∃ t, i = .host t ∧ takeTurn s = hostTransaction t (s.setInputs rest)) ∨
       (∃ a w d, i = .access a w d ∧ takeTurn s = bridgeAccess a w d (s.setInputs rest)) ∨
       (i = .hardReset ∧ takeTurn s = .next (s.setInputs rest).hardReset)) := by
  unfold takeTurn
  cases h : s.inputs with
  | nil => exact .inl ⟨rfl, rfl⟩
  | cons i rest =>
    refine .inr ⟨i, rest, rfl, ?_⟩
    cases i with
    | host t => exact .inr (.inl ⟨t, rfl, rfl⟩)
    | access a w d => exact .inr (.inr (.inl ⟨a, w, d, rfl, rfl⟩))
    | engine => exact .inl ⟨rfl, rfl⟩
    | hardReset => exact .inr (.inr (.inr ⟨rfl, rfl⟩))

/-- An access a bridge offers is a transaction or a fault (R84). -/
theorem bridgeAccess_cases (a w : Nat) (d : Option Word) (s : State) :
    (∃ t, expressible s.cfg a w d = some t ∧ bridgeAccess a w d s = hostTransaction t s) ∨
    (expressible s.cfg a w d = none ∧ bridgeAccess a w d s = .fault .inexpressibleAccess) := by
  unfold bridgeAccess
  cases h : expressible s.cfg a w d with
  | none => exact .inr ⟨rfl, rfl⟩
  | some t => exact .inl ⟨t, rfl, rfl⟩

end Sys2Proof.Machine
end

