-- ==== Sys2Proof/Laws/PerInstr.lean ====
section
/-! SUPPORT. Facts about every instruction as syntax, one lemma per constructor. -/

namespace Sys2Proof.Laws.OpcodeRowMatches

/-- The row of R113's opcode map an instruction belongs to: its OP. -/
def rowOf : Instr → Nat
  | .nop => 0
  | .keygen => 1
  | .permFwd _ => 2
  | .permInv _ => 3
  | .porEnc _ => 4
  | .porDec _ => 5
  | .potProve _ => 6
  | .potVerify _ _ _ => 7

/-- The instruction's word has the bits that its row of R113 fixes, and matches no other row. -/
def Statement (i : Instr) : Prop :=
  ∀ k (h : k < opcodeMap.length), encode i &&& opcodeMap[k].mask = opcodeMap[k].bits ↔ k = rowOf i

/-- A word that has the fixed bits of a row `r` below 8 and OP `r` matches that row only: every row fixes OP. -/
theorem of_op (i : Instr) (hop : (encode i).extractLsb' 0 4 = BitVec.ofNat 4 (rowOf i))
    (hrow : ∀ h : rowOf i < opcodeMap.length, encode i &&& opcodeMap[rowOf i].mask = opcodeMap[rowOf i].bits) :
    Statement i := by
  intro k h
  have hi : rowOf i < 8 := by cases i <;> simp [rowOf]
  have hk : k < 8 := h
  constructor
  · intro hm
    have hl := congrArg (fun w : Word => w.extractLsb' 0 4) hm
    have hmask : ∀ k (h : k < opcodeMap.length), opcodeMap[k].mask.extractLsb' 0 4 = 0xF#4 := by decide
    have hbits : ∀ k (h : k < opcodeMap.length), opcodeMap[k].bits.extractLsb' 0 4 = BitVec.ofNat 4 k := by decide
    have hone : ∀ x : BitVec 4, x &&& 0xF#4 = x := by decide
    simp only [BitVec.extractLsb'_and, hmask, hbits, hone, hop] at hl
    have := congrArg BitVec.toNat hl
    rw [BitVec.toNat_ofNat, BitVec.toNat_ofNat, Nat.mod_eq_of_lt (by omega), Nat.mod_eq_of_lt (by omega)] at this
    exact this.symm
  · rintro rfl
    exact hrow h

theorem nop : Statement .nop := of_op _ (by decide) (by decide)
theorem keygen : Statement .keygen := of_op _ (by decide) (by decide)
theorem permFwd (n : BitVec 4) : Statement (.permFwd n) :=
  of_op _ (by revert n; decide) fun _ => by revert n; decide
theorem permInv (n : BitVec 4) : Statement (.permInv n) :=
  of_op _ (by revert n; decide) fun _ => by revert n; decide
theorem porEnc (n : BitVec 4) : Statement (.porEnc n) :=
  of_op _ (by revert n; decide) fun _ => by revert n; decide
theorem porDec (n : BitVec 4) : Statement (.porDec n) :=
  of_op _ (by revert n; decide) fun _ => by revert n; decide
theorem potProve (v : BitVec 5) : Statement (.potProve v) :=
  of_op _ (by revert v; decide) fun _ => by revert v; decide
theorem potVerify (v : BitVec 5) (first last : BitVec 4) : Statement (.potVerify v first last) := by
  refine of_op _ ?_ fun _ => ?_
  · apply BitVec.eq_of_getLsbD_eq
    intro j hj
    simp only [encode, rowOf, BitVec.getLsbD_extractLsb', BitVec.getLsbD_append, hj, decide_true, Bool.true_and]
    interval_cases j <;> rfl
  · apply BitVec.eq_of_getLsbD_eq
    intro j hj
    simp only [encode, rowOf, opcodeMap, List.getElem_cons_succ, List.getElem_cons_zero, BitVec.getLsbD_and,
      BitVec.getLsbD_append]
    interval_cases j <;> simp

end Sys2Proof.Laws.OpcodeRowMatches
end

