-- ==== Sys2Proof/Laws/Perm.lean ====
section
/-! SUPPORT. What the permutation pair and the key expansion of an instance can be, said once, and the laws the chosen ones carry. -/

namespace Sys2Proof.Machine

/-- Where PERM is the default, Fwd is, whatever KEYEXP is (R192). -/
theorem permFwdBlock_aes {p : CipherSel} (h : p.perm = .aes128) : permFwdBlock p = aesFwd := by
  funext ks b
  simp only [permFwdBlock, h]

/-- Where PERM is the default, Inv is, whatever KEYEXP is (R192). -/
theorem permInvBlock_aes {p : CipherSel} (h : p.perm = .aes128) : permInvBlock p = aesInv := by
  funext ks b
  simp only [permInvBlock, h]

/-- The KEYEXP under the default PERM: the default, or another that carries the law of R171. -/
theorem aesPairKeyExp_cases (k : KeyExpSel) :
    aesPairKeyExp k = aesKeyExp ∨ ∃ e : LawfulAesKeyExp, aesPairKeyExp k = e.keyExp := by
  unfold aesPairKeyExp
  split
  · exact .inl rfl
  · split
    · next e _ => exact .inr ⟨e, rfl⟩
    · exact .inl rfl

/-- All that PERM and KEYEXP of an instance can be (R7): the default PERM beside the default KEYEXP, the default PERM beside
another lawful KEYEXP, or a pair that is lawful under the KEYEXP it stands beside (R191). -/
theorem cipher_cases (p : CipherSel) :
    (permFwdBlock p = aesFwd ∧ permInvBlock p = aesInv ∧ keyExpand p = aesKeyExp) ∨
    (permFwdBlock p = aesFwd ∧ permInvBlock p = aesInv ∧ ∃ e : LawfulAesKeyExp, keyExpand p = e.keyExp) ∨
    ∃ (k : Block → KeySchedule × KeySchedule) (c : LawfulPerm k),
      permFwdBlock p = c.fwd ∧ permInvBlock p = c.inv ∧ keyExpand p = k := by
  rcases p with ⟨_ | n, k⟩
  · rcases aesPairKeyExp_cases k with h | ⟨e, h⟩
    · exact .inl ⟨rfl, rfl, h⟩
    · exact .inr (.inl ⟨rfl, rfl, e, h⟩)
  · exact .inr (.inr ⟨customPairKeyExp k, Config.customPerm (customPairKeyExp k) n, rfl, rfl, rfl⟩)

end Sys2Proof.Machine
end

