-- ==== Sys2Proof/Machine/Timing.lean ====
section
/-! DEFINITION. Sequential depth and work of a command, counted in permutation applications (R350). Informative: no rule of the machine depends on it. -/

namespace Sys2Proof.Machine

/-- The sequential depth of a command whose independent chains all fit the width (R350), with A = ITER and B = BREADTH. -/
def sequentialDepth (a b : Nat) : Instr → Nat
  | .nop => 0
  | .keygen => 0
  | .permFwd _ => a
  | .permInv _ => a
  | .porEnc _ => 256 * a * b
  | .porDec _ => a * b
  | .potProve _ => a
  | .potVerify v _ _ => a / v.toNat

/-- The permutation applications of a command (R350), with A = ITER and B = BREADTH. -/
def work (a b : Nat) : Instr → Nat
  | .nop => 0
  | .keygen => 0
  | .permFwd n => n.toNat * a
  | .permInv n => n.toNat * a
  | .porEnc n => n.toNat * 256 * a * b
  | .porDec n => n.toNat * 256 * a * b
  | .potProve _ => a
  | .potVerify v first last => (last.toNat + 1 - first.toNat) * (a / v.toNat)

end Sys2Proof.Machine
end

