-- ==== Sys2Proof/Tests/Slice0.lean ====
section
/-! SUPPORT. Tests from the spec's tables and vectors, and for each statement with hypotheses a witness that meets them. -/

namespace Sys2Proof.Tests

open Sys2Proof Sys2Proof.Machine

/-! ## WellFormed: an ill-formed term for each check, and a legal one at each boundary (R117) -/

theorem test_permFwd_count_refused : (Instr.permFwd 5).wellFormed = false := by decide
theorem test_permInv_count_refused : (Instr.permInv 0).wellFormed = false := by decide
theorem test_porEnc_count_refused : (Instr.porEnc 15).wellFormed = false := by decide
theorem test_porDec_count_refused : (Instr.porDec 2).wellFormed = false := by decide
theorem test_potProve_count_refused : (Instr.potProve 5).wellFormed = false := by decide
theorem test_potVerify_count_refused : (Instr.potVerify 5 0 3).wellFormed = false := by decide
theorem test_potVerify_order_refused : (Instr.potVerify 16 5 3).wellFormed = false := by decide
theorem test_potVerify_end_refused : (Instr.potVerify 4 0 4).wellFormed = false := by decide
theorem test_wellFormed_accepts :
    (Instr.permFwd 12).wellFormed ∧ (Instr.potProve 16).wellFormed ∧ (Instr.potVerify 16 15 15).wellFormed ∧
      Instr.nop.wellFormed ∧ Instr.keygen.wellFormed := by decide

/-! ## Decode: each row's word written out bit by bit from R114, and the words of 95_test_vectors.md -/

theorem test_decode_nop : decode 0b00000000000000000000000000000000 = .ok .nop := by decide
theorem test_decode_keygen : decode 0b00000000000000000000000000000001 = .ok .keygen := by decide
theorem test_decode_permFwd : decode 0b00000000000000000000101000000010 = .ok (.permFwd 0b1010) := by decide
theorem test_decode_permInv : decode 0b00000000000000000000010000000011 = .ok (.permInv 0b0100) := by decide
theorem test_decode_porEnc : decode 0b00000000000000000000110000000100 = .ok (.porEnc 0b1100) := by decide
theorem test_decode_porDec : decode 0b00000000000000000000000100000101 = .ok (.porDec 0b0001) := by decide
theorem test_decode_potProve : decode 0b00000000000101100000000000000110 = .ok (.potProve 0b10110) := by decide
theorem test_decode_potVerify :
    decode 0b10010011000011000000000000000111 = .ok (.potVerify 0b01100 0b0011 0b1001) := by decide
/-- R119's worked encodings. -/
theorem test_encode_worked :
    encode (.permFwd 4) = 0x00000402 ∧ encode (.porEnc 12) = 0x00000C04 ∧ encode (.potProve 16) = 0x00100006 ∧
      encode (.potVerify 16 0 15) = 0xF0100007 ∧ encode (.potVerify 4 1 2) = 0x21040007 := by decide
/-- K-2, F-16, N-3, N-4, T-5 of 95_test_vectors.md. -/
theorem test_decode_refusals :
    decode 0x00000101 = .error .badField ∧ decode 0x00000012 = .error .badField ∧
      decode 0x00010002 = .error .badField ∧ decode 0x01100006 = .error .badField ∧
      decode 0x00000009 = .error .illegalOp ∧ decode 0xFFFFFFFF = .error .illegalOp := by decide
theorem test_decodeTableWord : decodeTableWord 32 0x21040007 = some (.potVerify 4 1 2) := by decide
/-- R120: `pot.verify 16`; R119: an operand that does not fit is rejected. -/
theorem test_assemble :
    (assemble (.potVerifyAll 16)).map encode = some 0xF0100007 ∧ assemble (.permFwd 16) = none := by decide

/-! ## Check values of the default permutation (95_test_vectors.md §2 and §3) -/

theorem test_gf_examples : gfMul 0x57 0x83 = 0xc1 ∧ gfMul 0x57 0x13 = 0xfe := by decide +kernel
theorem test_sbox_examples :
    sbox 0x00 = 0x63 ∧ sbox 0x53 = 0xed ∧ sbox 0xff = 0x16 ∧ invSbox 0x63 = 0x00 ∧ invSbox 0xed = 0x53 ∧
      invSbox 0x16 = 0xff := by decide +kernel
/-- R195: ShiftRows(b) = b[0], b[5], b[10], b[15], b[4], … -/
theorem test_shiftRows : shiftRows (Block.ofHex 0x000102030405060708090a0b0c0d0e0f) =
    Block.ofHex 0x00050a0f04090e03080d02070c01060b := by decide +kernel
/-- G-3 and G-4. -/
theorem test_schedule :
    (aesKeyExp (Block.ofHex 0x000102030405060708090a0b0c0d0e0f)).1.rk 10 = Block.ofHex 0x13111d7fe3944a17f307a78b4d2b30c5 ∧
    (aesKeyExp (Block.ofHex 0x000102030405060708090a0b0c0d0e0f)).2.rk 1 = Block.ofHex 0x13aa29be9c8faff6f770f58000f7bf03 := by
  decide +kernel
/-- G-1. -/
theorem test_aesFwd :
    aesFwd (aesKeyExp (Block.ofHex 0x000102030405060708090a0b0c0d0e0f)).1 (Block.ofHex 0x00112233445566778899aabbccddeeff) =
      Block.ofHex 0x69c4e0d86a7b0430d8cdb78070b4c55a := by decide +kernel
/-- G-2. -/
theorem test_aesInv :
    aesInv (aesKeyExp (Block.ofHex 0x000102030405060708090a0b0c0d0e0f)).2 (Block.ofHex 0x69c4e0d86a7b0430d8cdb78070b4c55a) =
      Block.ofHex 0x00112233445566778899aabbccddeeff := by decide +kernel

/-! ## One step each (95_test_vectors.md §3.5, §3.6, P2, P5) -/

/-- The fields of the next state a test looks at. -/
def look {α : Type} (f : State → α) : Host.Outcome State Fault Refusal → Option α
  | .next t => some (f t)
  | _ => none

/-- The STATUS word after a host write to CMD of an engine right after reset, with ITER and BREADTH as given. -/
def statusAfterCmd (iter breadth d : Word) : Word :=
  ((hostWrite 4 d { State.reset with iter := iter, breadth := breadth })).statusWord

/-- N-1: NOP completes with STATUS = 0x00000002. -/
theorem test_nop_status : look State.statusWord (step (State.reset.withFetchWord 32 0)) = some 0x00000002 := by decide
/-- P-13, P2, T-5: codes 4, 5, 3, 9 of the POR commands. -/
theorem test_por_rejections :
    statusAfterCmd 0 1 0x00000404 = 0x00000404 ∧ statusAfterCmd 1 0 0x00000404 = 0x00000504 ∧
      statusAfterCmd 0 1 0x00000F04 = 0x00000304 ∧ statusAfterCmd 1 1 0x00000804 = 0x00000904 ∧
      statusAfterCmd 1 1 0x00000105 = 0x00000001 := by decide
theorem test_perm_rejections :
    statusAfterCmd 0 1 0x00000002 = 0x00000304 ∧ statusAfterCmd 0 1 0x00000502 = 0x00000304 ∧
      statusAfterCmd 0 1 0x00000803 = 0x00000904 ∧ statusAfterCmd 0 1 0x00000402 = 0x00000001 := by decide
theorem test_pot_rejections :
    statusAfterCmd 256 1 0x00100006 = 0x00000404 ∧ statusAfterCmd 40 1 0x00040006 = 0x00000404 ∧
      statusAfterCmd 48 1 0x00040006 = 0x00000001 ∧ statusAfterCmd 0 1 0x00000006 = 0x00000604 ∧
      statusAfterCmd 256 1 0x30050007 = 0x00000604 ∧ statusAfterCmd 256 1 0x35100007 = 0x00000704 ∧
      statusAfterCmd 256 1 0x40040007 = 0x00000704 ∧ statusAfterCmd 100 1 0xF0100007 = 0x00000404 ∧
      statusAfterCmd 256 1 0xF0100007 = 0x00000001 := by decide
/-- R265: with Q = 12 the smallest legal ITER is 12, 24, 12, 48 for V = 4, 8, 12, 16 (V = 12: log entry 21). -/
theorem test_potProve_smallest_iter :
    statusAfterCmd 12 1 0x00040006 = 0x00000001 ∧ statusAfterCmd 24 1 0x00080006 = 0x00000001 ∧
      statusAfterCmd 12 1 0x000C0006 = 0x00000001 ∧ statusAfterCmd 48 1 0x00100006 = 0x00000001 ∧
      statusAfterCmd 12 1 0x00080006 = 0x00000404 := by decide
/-- K-2: KEYGEN of an engine without the unit. -/
theorem test_keygen_unsupported :
    (launch 1 (State.resetWith { Config.default with hasKeygen := false })).statusWord = 0x00000904 := by decide
/-- Z-1, Z-2: ID, CAPS of the four default variants, and the registers after hard reset. -/
theorem test_caps_defaults :
    [Variant.scalarTable, .bitsliced8, .pipe4, .pipe12].map (fun v => { Config.default with variant := v }.capsWord) =
      [0x00030101, 0x00031508, 0x00032304, 0x0003390C] := by decide
theorem test_identity : Config.default.identity = "RPE1-PIPE4-K1.4-Q12-G1" := by decide +kernel
/-- K-1: KEYGEN on the fixture identifier: word 0x100 reads 0x0f94849a, word 0x200 reads 0x8607192e. -/
theorem test_keygen_words :
    (look (fun t => (t.mem.readWord 0x100, t.mem.readWord 0x200))
      (exec .keygen { State.reset with mem := Mem.writeBlock [] identBase (Block.ofHex 0x9a84940ffef5b0d70199fc67f46ea27a) })) =
      some (some 0x0f94849a, some 0x8607192e) := by decide +kernel
/-- F-2 (ITER = 1) by hand from R200: LANE[0] = Fwd(KS_FWD, 0), here for the all-zero identifier (G-7). -/
theorem test_permFwd_lane :
    (look (fun t => t.lane 0)
      (exec (.permFwd 1)
        { State.reset with
          iter := 1
          mem := ((Mem.writeSchedule [] ksFwdBase (aesKeyExp 0).1).writeBlock laneBase 0) })) =
      some (some (Block.ofHex 0x66e94bd4ef8a2c3b884cfa59ca342b2e)) := by decide +kernel
/-- Z-9, Z-10: a soft reset while KEYGEN runs makes KS_FWD undefined and stops the command; IDENT is kept. -/
theorem test_softReset_abandons :
    let s := (State.reset.loadCommand 1).setMem ((Mem.writeSchedule [] ksFwdBase 0).writeBlock identBase 7)
    (hostWrite 2 2 s).ksFwd = none ∧ (hostWrite 2 2 s).ident = some 7 ∧ (hostWrite 2 2 s).busy = false := by
  decide +kernel
/-- By hand from R230, R231 and R234, with x + 1 for Fwd^A and x - 1 for Inv^A on Pieces of three Blocks. -/
theorem test_por_passes :
    encPass (· + 1) 5 [1, 2, 3] = [5, 8, 12] ∧ porEncode (· + 1) 2 5 [1, 2, 3] = [10, 3, 16] ∧
      porDecode (· - 1) 2 5 [10, 3, 16] = [1, 2, 3] := by decide
/-- By hand from R260, R263 and R264: the chain of 5, and ranges of it with checkpoint 1 whole and changed. -/
theorem test_pot_chain :
    potChain (· + 1) 5 3 = [6, 7, 8] ∧ intervalsOk (· - 1) 5 [6, 7, 8] = true ∧ intervalsOk (· - 1) 5 [6, 9, 8] = false ∧
      intervalsOk (· - 1) 9 [8] = false := by decide
/-- R81's example: the SEED block's word at 0x310. -/
theorem test_little_endian :
    (Mem.writeBlock [] seedBase (Block.ofHex 0xd666ccd8d593c23da8db6b5b1413b13a)).readWord 0x310 = some 0xd8cc66d6 := by
  decide +kernel

/-- Two instances, at 0 and at 0x20000; two at one place make no system (R96). -/
def pair : System :=
  { members := [State.reset, State.resetWith { Config.default with baseIndex := 1 }]
    inputs := [.bus 0x20014 4 (some 5), .bus 0x14 4 (some 7), .bus 0x20010 4 (some 0)] }

theorem test_system_reset :
    System.reset [Config.default, { Config.default with baseIndex := 1 }] = some { pair with inputs := [] } ∧
      System.reset [Config.default, Config.default] = none := by decide

/-- ITER of the second instance, then ITER of the first, then NOP to the second: each reaches its own instance only. -/
theorem test_system_order :
    (match stepSystem pair with
     | .next a =>
       match stepSystem a with
       | .next b =>
         match stepSystem b with
         | .next c => [a, b, c].map fun x => x.members.map fun s => (s.iter, s.busy)
         | _ => []
       | _ => []
     | _ => []) =
      [[(0, false), (5, false)], [(7, false), (5, false)], [(7, false), (5, true)]] := by decide

/-! ## A state with every input defined -/

/-- The data windows holding the given values, one window after the other. -/
def layout (f g : KeySchedule) (id seed : Block) (ivs lanes cps : List Block) (ps : List Piece) : Mem :=
  (((((((Mem.writeSchedule [] ksFwdBase f).writeSchedule ksInvBase g).writeBlock identBase id).writeBlock seedBase
    seed).writeBlocks ivBase ivs).writeBlocks laneBase lanes).writeBlocks proofBase cps).writePieces pieceBase ps

section Layout

variable (f g : KeySchedule) (id seed : Block) (ivs lanes cps : List Block) (ps : List Piece)

/-- Below PIECE, the bytes are those of the windows below it. -/
theorem layout_low (hp : ∀ p ∈ ps, p.length = 256) {x : Nat} (h : x < pieceBase) :
    (layout f g id seed ivs lanes cps ps).get x =
      (((((((Mem.writeSchedule [] ksFwdBase f).writeSchedule ksInvBase g).writeBlock identBase id).writeBlock seedBase
        seed).writeBlocks ivBase ivs).writeBlocks laneBase lanes).writeBlocks proofBase cps).get x := by
  rw [layout, Mem.get_writePieces_outside _ _ ps hp _ (.inl h)]

/-- Below IV, the bytes are those of KS_FWD, KS_INV, IDENT and SEED. -/
theorem layout_banks (hp : ∀ p ∈ ps, p.length = 256) {x : Nat} (h : x < ivBase) :
    (layout f g id seed ivs lanes cps ps).get x =
      ((((Mem.writeSchedule [] ksFwdBase f).writeSchedule ksInvBase g).writeBlock identBase id).writeBlock seedBase
        seed).get x := by
  simp only [ivBase] at h
  rw [layout_low _ _ _ _ _ _ _ _ hp (by simp only [pieceBase]; omega),
    Mem.get_writeBlocks_outside _ _ cps _ (.inl (by simp only [proofBase]; omega)),
    Mem.get_writeBlocks_outside _ _ lanes _ (.inl (by simp only [laneBase]; omega)),
    Mem.get_writeBlocks_outside _ _ ivs _ (.inl (by simp only [ivBase]; omega))]

theorem layout_ksFwd (hp : ∀ p ∈ ps, p.length = 256) :
    (layout f g id seed ivs lanes cps ps).readSchedule ksFwdBase = some f := by
  refine Eq.trans (Mem.read_congr fun i hi => ?_) (Mem.read_write_same [] ksFwdBase 176 f)
  rw [layout_banks _ _ _ _ _ _ _ _ hp (by simp only [ksFwdBase, ivBase]; omega), Mem.writeBlock, Mem.writeBlock,
    Mem.writeSchedule, Mem.writeSchedule,
    Mem.get_write_outside _ seedBase 16 seed _ (.inl (by simp only [ksFwdBase, seedBase]; omega)),
    Mem.get_write_outside _ identBase 16 id _ (.inl (by simp only [ksFwdBase, identBase]; omega)),
    Mem.get_write_outside _ ksInvBase 176 g _ (.inl (by simp only [ksFwdBase, ksInvBase]; omega))]

theorem layout_ksInv (hp : ∀ p ∈ ps, p.length = 256) :
    (layout f g id seed ivs lanes cps ps).readSchedule ksInvBase = some g := by
  refine Eq.trans (Mem.read_congr fun i hi => ?_) (Mem.read_write_same (Mem.write [] ksFwdBase 176 f) ksInvBase 176 g)
  rw [layout_banks _ _ _ _ _ _ _ _ hp (by simp only [ksInvBase, ivBase]; omega), Mem.writeBlock, Mem.writeBlock,
    Mem.writeSchedule, Mem.writeSchedule,
    Mem.get_write_outside _ seedBase 16 seed _ (.inl (by simp only [ksInvBase, seedBase]; omega)),
    Mem.get_write_outside _ identBase 16 id _ (.inl (by simp only [ksInvBase, identBase]; omega))]

theorem layout_ident (hp : ∀ p ∈ ps, p.length = 256) :
    (layout f g id seed ivs lanes cps ps).readBlock identBase = some id := by
  refine Eq.trans (Mem.readBlock_congr fun i hi => ?_) (Mem.readBlock_writeBlock_same
    ((Mem.writeSchedule [] ksFwdBase f).writeSchedule ksInvBase g) identBase id)
  rw [layout_banks _ _ _ _ _ _ _ _ hp (by simp only [identBase, ivBase]; omega), Mem.writeBlock, Mem.writeBlock,
    Mem.get_write_outside _ seedBase 16 seed _ (.inl (by simp only [identBase, seedBase]; omega))]

theorem layout_seed (hp : ∀ p ∈ ps, p.length = 256) :
    (layout f g id seed ivs lanes cps ps).readBlock seedBase = some seed := by
  refine Eq.trans (Mem.readBlock_congr fun i hi => ?_) (Mem.readBlock_writeBlock_same
    (((Mem.writeSchedule [] ksFwdBase f).writeSchedule ksInvBase g).writeBlock identBase id) seedBase seed)
  rw [layout_banks _ _ _ _ _ _ _ _ hp (by simp only [seedBase, ivBase]; omega)]

theorem layout_iv (hp : ∀ p ∈ ps, p.length = 256) (hl : ivs.length ≤ 12) (j : Nat) (hj : j < ivs.length) :
    (layout f g id seed ivs lanes cps ps).readBlock (ivBase + 16 * j) = some ivs[j] := by
  refine Eq.trans (Mem.readBlock_congr fun i hi => ?_) (Mem.readBlock_writeBlocks
    ((((Mem.writeSchedule [] ksFwdBase f).writeSchedule ksInvBase g).writeBlock identBase id).writeBlock seedBase seed)
    ivBase ivs j hj)
  rw [layout_low _ _ _ _ _ _ _ _ hp (by simp only [ivBase, pieceBase]; omega),
    Mem.get_writeBlocks_outside _ _ cps _ (.inl (by simp only [ivBase, proofBase]; omega)),
    Mem.get_writeBlocks_outside _ _ lanes _ (.inl (by simp only [ivBase, laneBase]; omega))]

theorem layout_lane (hp : ∀ p ∈ ps, p.length = 256) (hl : lanes.length ≤ 12) (j : Nat) (hj : j < lanes.length) :
    (layout f g id seed ivs lanes cps ps).readBlock (laneBase + 16 * j) = some lanes[j] := by
  refine Eq.trans (Mem.readBlock_congr fun i hi => ?_) (Mem.readBlock_writeBlocks
    (((((Mem.writeSchedule [] ksFwdBase f).writeSchedule ksInvBase g).writeBlock identBase id).writeBlock seedBase
      seed).writeBlocks ivBase ivs) laneBase lanes j hj)
  rw [layout_low _ _ _ _ _ _ _ _ hp (by simp only [laneBase, pieceBase]; omega),
    Mem.get_writeBlocks_outside _ _ cps _ (.inl (by simp only [laneBase, proofBase]; omega))]

theorem layout_checkpoint (hp : ∀ p ∈ ps, p.length = 256) (hl : cps.length ≤ 16) (k : Nat) (hk : k < cps.length) :
    (layout f g id seed ivs lanes cps ps).readBlock (proofBase + 16 * k) = some cps[k] := by
  refine Eq.trans (Mem.readBlock_congr fun i hi => ?_) (Mem.readBlock_writeBlocks
    ((((((Mem.writeSchedule [] ksFwdBase f).writeSchedule ksInvBase g).writeBlock identBase id).writeBlock seedBase
      seed).writeBlocks ivBase ivs).writeBlocks laneBase lanes) proofBase cps k hk)
  rw [layout_low _ _ _ _ _ _ _ _ hp (by simp only [proofBase, pieceBase]; omega)]

theorem layout_piece (hp : ∀ p ∈ ps, p.length = 256) (j : Nat) (hj : j < ps.length) :
    (layout f g id seed ivs lanes cps ps).readBlocks (pieceBase + 4096 * j) 256 = some ps[j] := by
  rw [layout]
  exact Mem.readPiece_writePieces _ pieceBase ps hp j hj

end Layout

/-- A Piece of zeros. -/
def zeroPiece : Piece := List.replicate 256 0

theorem zeroPiece_length : zeroPiece.length = 256 := List.length_replicate

theorem zeroPieces_lengths : ∀ p ∈ List.replicate 4 zeroPiece, p.length = 256 :=
  fun _ h => (congrArg List.length (List.eq_of_mem_replicate h)).trans zeroPiece_length

/-- Every data window of an instance with W = 4 defined: the schedules of the identifier 0, and zeros. -/
@[irreducible] def demoMem : Mem :=
  layout (keyExpand .aes128 0).1 (keyExpand .aes128 0).2 0 0 (List.replicate 4 0) (List.replicate 4 0)
    (List.replicate 16 0) (List.replicate 4 zeroPiece)

theorem demoMem_eq :
    demoMem = layout (keyExpand .aes128 0).1 (keyExpand .aes128 0).2 0 0 (List.replicate 4 0) (List.replicate 4 0)
      (List.replicate 16 0) (List.replicate 4 zeroPiece) := by
  unfold demoMem
  exact Eq.refl _

/-- An idle engine, ITER = 48 and BREADTH = 1, with every byte of its data windows defined. -/
def demo : State := { State.reset with iter := 48, mem := demoMem }

/-- What an engine with W = 4 and these windows reads. -/
structure Demo (s : State) : Prop where
  ksFwd : s.ksFwd = some (keyExpand .aes128 0).1
  ksInv : s.ksInv = some (keyExpand .aes128 0).2
  ident : s.ident = some 0
  seed : s.seed = some 0
  iv : ∀ j < 4, s.iv j = some 0
  lane : ∀ j < 4, s.lane j = some 0
  checkpoint : ∀ k < 16, s.checkpoint k = some 0
  piece : ∀ j < 4, s.piece j = some zeroPiece

theorem demo_of {s : State} (h : s.mem = demoMem) : Demo s where
  ksFwd := by rw [State.ksFwd, h, demoMem_eq, layout_ksFwd _ _ _ _ _ _ _ _ zeroPieces_lengths]
  ksInv := by rw [State.ksInv, h, demoMem_eq, layout_ksInv _ _ _ _ _ _ _ _ zeroPieces_lengths]
  ident := by rw [State.ident, h, demoMem_eq, layout_ident _ _ _ _ _ _ _ _ zeroPieces_lengths]
  seed := by rw [State.seed, h, demoMem_eq, layout_seed _ _ _ _ _ _ _ _ zeroPieces_lengths]
  iv := fun j hj => by
    have hl : j < (List.replicate 4 (0 : Block)).length := by rw [List.length_replicate]; exact hj
    rw [State.iv, h, demoMem_eq, layout_iv _ _ _ _ _ _ _ _ zeroPieces_lengths (by rw [List.length_replicate]; omega) j hl,
      List.getElem_replicate]
  lane := fun j hj => by
    have hl : j < (List.replicate 4 (0 : Block)).length := by rw [List.length_replicate]; exact hj
    rw [State.lane, h, demoMem_eq,
      layout_lane _ _ _ _ _ _ _ _ zeroPieces_lengths (by rw [List.length_replicate]; omega) j hl, List.getElem_replicate]
  checkpoint := fun k hk => by
    have hl : k < (List.replicate 16 (0 : Block)).length := by rw [List.length_replicate]; exact hk
    rw [State.checkpoint, h, demoMem_eq,
      layout_checkpoint _ _ _ _ _ _ _ _ zeroPieces_lengths (by rw [List.length_replicate]) k hl, List.getElem_replicate]
  piece := fun j hj => by
    have hl : j < (List.replicate 4 zeroPiece).length := by rw [List.length_replicate]; exact hj
    rw [State.piece, h, demoMem_eq, layout_piece _ _ _ _ _ _ _ _ zeroPieces_lengths j hl, List.getElem_replicate]

theorem demo_reads : Demo demo := demo_of rfl

/-! ## Witnesses: for each statement with hypotheses, a state and operands that meet them all -/

/-- An outcome that is a next state. -/
def isNext : Host.Outcome State Fault Refusal → Bool
  | .next _ => true
  | _ => false

theorem next_of_isNext {o : Host.Outcome State Fault Refusal} (h : isNext o = true) : ∃ t, o = .next t := by
  cases o with
  | next t => exact ⟨t, rfl⟩
  | fault r => cases h
  | refused r => cases h

theorem demo_lanes {s : State} (h : Demo s) (n : BitVec 4) (hs : slots s.cfg n ≤ 4) :
    s.lanes n = some (List.replicate (slots s.cfg n) 0) := by
  refine (Mem.readBlocks_eq_some_iff _ _ _ _).2 ⟨List.length_replicate, fun k hk => ?_⟩
  rw [List.getElem_replicate]
  rw [List.length_replicate] at hk
  exact h.lane k (by omega)

theorem demo_ivs {s : State} (h : Demo s) (n : BitVec 4) (hs : slots s.cfg n ≤ 4) :
    s.ivs n = some (List.replicate (slots s.cfg n) 0) := by
  refine (Mem.readBlocks_eq_some_iff _ _ _ _).2 ⟨List.length_replicate, fun k hk => ?_⟩
  rw [List.getElem_replicate]
  rw [List.length_replicate] at hk
  exact h.iv k (by omega)

theorem demo_pieces {s : State} (h : Demo s) (n : BitVec 4) (hs : slots s.cfg n ≤ 4) :
    s.pieces n = some (List.replicate (slots s.cfg n) zeroPiece) := by
  refine (Mem.readPieces_eq_some_iff _ _ _ _).2 ⟨List.length_replicate, fun k hk => ?_⟩
  rw [List.getElem_replicate]
  rw [List.length_replicate] at hk
  exact h.piece k (by omega)

theorem demo_checkpoints {s : State} (h : Demo s) (first last : BitVec 4) :
    s.checkpoints first last = some (List.replicate (last.toNat + 1 - first.toNat) 0) := by
  refine (Mem.readBlocks_eq_some_iff _ _ _ _).2 ⟨List.length_replicate, fun k hk => ?_⟩
  rw [List.getElem_replicate]
  rw [List.length_replicate] at hk
  have := h.checkpoint (first.toNat + k) (by omega)
  rwa [State.checkpoint, Nat.mul_add, ← Nat.add_assoc] at this

theorem demo_predecessor {s : State} (h : Demo s) (first : BitVec 4) : s.predecessor first = some 0 := by
  unfold State.predecessor
  split
  · exact h.seed
  · exact h.checkpoint _ (by omega)

/-- Every command of counts up to W completes in such a state. -/
theorem demo_perm_next {s : State} (h : Demo s) (n : BitVec 4) (hs : slots s.cfg n ≤ 4) :
    (∃ t, exec (.permFwd n) s = .next t) ∧ ∃ t, exec (.permInv n) s = .next t := by
  constructor
  · rw [exec, execPermFwd, h.ksFwd, demo_lanes h n hs]; exact ⟨_, rfl⟩
  · rw [exec, execPermInv, h.ksInv, demo_lanes h n hs]; exact ⟨_, rfl⟩

theorem demo_por_next {s : State} (h : Demo s) (n : BitVec 4) (hs : slots s.cfg n ≤ 4) :
    (∃ t, exec (.porEnc n) s = .next t) ∧ ∃ t, exec (.porDec n) s = .next t := by
  constructor
  · rw [exec, execPorEnc, h.ksFwd, demo_ivs h n hs, demo_pieces h n hs]; exact ⟨_, rfl⟩
  · rw [exec, execPorDec, h.ksInv, demo_ivs h n hs, demo_pieces h n hs]; exact ⟨_, rfl⟩

theorem demo_potProve_next {s : State} (h : Demo s) (v : BitVec 5) : ∃ t, exec (.potProve v) s = .next t := by
  rw [exec, execPotProve, h.ksFwd, h.seed]; exact ⟨_, rfl⟩

theorem demo_potVerify_next {s : State} (h : Demo s) (v : BitVec 5) (first last : BitVec 4) :
    ∃ t, exec (.potVerify v first last) s = .next t := by
  rw [exec, execPotVerify, h.ksInv, demo_predecessor h, demo_checkpoints h]; exact ⟨_, rfl⟩

/-- An instance of another variant with the same windows and ITER: W = 12, KSET = {1, 4, 12}. -/
def demo12 : State := { demo with cfg := { Config.default with variant := .pipe12, extra4 := true } }

theorem demo12_reads : Demo demo12 := demo_of rfl

/-! ### Encoding and launch -/

theorem witness_EncodeOfDecode :
    decode 0xF0100007 = .ok (.potVerify 16 0 15) ∧ decode 0xFF1F0007 = .ok (.potVerify 31 15 15) ∧ decode 0 = .ok .nop := by
  decide

/-- The first and the last illegal opcode, one word for each kind of stray bit, and NOP's. -/
theorem witness_MalformedWordsRejected :
    State.reset.busy = false ∧
    8 ≤ ((8 : Word).extractLsb' 0 4).toNat ∧ 8 ≤ ((0xFFFFFFFF : Word).extractLsb' 0 4).toNat ∧
    (((0x10 : Word).extractLsb' 0 4).toNat < 8 ∧ (0x10 : Word) &&& 0x00E0F0F0 ≠ 0) ∧
    (((0x101 : Word).extractLsb' 0 4).toNat ∉ [2, 3, 4, 5] ∧ (0x101 : Word) &&& 0x00000F00 ≠ 0) ∧
    (((0x10002 : Word).extractLsb' 0 4).toNat ∉ [6, 7] ∧ (0x10002 : Word) &&& 0x001F0000 ≠ 0) ∧
    (((0x01100006 : Word).extractLsb' 0 4).toNat ≠ 7 ∧ (0x01100006 : Word) &&& 0xFF000000 ≠ 0) ∧
    decode 0 = .ok .nop := by decide

/-! ### Completion -/

/-- Both forms of the hypothesis on `inputs`, with BUSY = 1 and with BUSY = 0. -/
theorem witness_StepRunsDecodedCommand :
    (State.reset.loadCommand 0x402).inputs = .engine :: [] ∧ (State.reset.loadCommand 0x402).busy = true ∧
      decode (State.reset.loadCommand 0x402).cur = .ok (.permFwd 4) ∧
    State.reset.inputs = [] ∧ State.reset.busy = false ∧
    { State.reset with busy := true }.inputs = [] ∧ decode { State.reset with busy := true }.cur = .ok .nop := by decide

theorem witness_KeygenCompletes : demo.ident = some 0 := demo_reads.ident

/-- All lanes of an instance with W = 4, and no lane. -/
theorem witness_PermFwdCompletes :
    demo.ksFwd = some (keyExpand .aes128 0).1 ∧ (∀ j < min (4 : BitVec 4).toNat demo.cfg.width, demo.lane j = some 0) ∧
      ∀ j < min (0 : BitVec 4).toNat demo.cfg.width, demo.lane j = some 0 :=
  ⟨demo_reads.ksFwd, fun j hj => demo_reads.lane j hj, fun j hj => demo_reads.lane j (by change j < 0 at hj; omega)⟩

theorem witness_PermInvCompletes :
    demo.ksInv = some (keyExpand .aes128 0).2 ∧ ∀ j < min (15 : BitVec 4).toNat demo.cfg.width, demo.lane j = some 0 :=
  ⟨demo_reads.ksInv, fun j hj => demo_reads.lane j hj⟩

/-- A chain of passes that starts with a piece, as PorEncCompletes and PorDecCompletes take one, whatever the seeds are. -/
theorem exists_passes (p : Piece) (next : Nat → Piece → Piece) :
    ∃ x : Nat → Piece, x 0 = p ∧ ∀ q, x (q + 1) = next q (x q) := ⟨Nat.rec p next, rfl, fun _ => rfl⟩

/-- The passes of a piece with BREADTH = 2: the first and a later one, on encode and on decode. -/
theorem witness_PorPasses (f g : Block → Block) (iv : Block) :
    (∃ x : Nat → Piece, x 0 = zeroPiece ∧
      ∀ q < 2, x (q + 1) = encPass f (if q = 0 then iv else (x q).getD 255 0) (x q)) ∧
    ∃ x : Nat → Piece, x 0 = zeroPiece ∧
      ∀ q < 2, x (q + 1) = decPass g (if q + 1 = 2 then iv else g ((x q).getD 255 0) ^^^ (x q).getD 254 0) (x q) := by
  obtain ⟨x, hx, h⟩ := exists_passes zeroPiece fun q y => encPass f (if q = 0 then iv else y.getD 255 0) y
  obtain ⟨z, hz, k⟩ := exists_passes zeroPiece fun q y =>
    decPass g (if q + 1 = 2 then iv else g (y.getD 255 0) ^^^ y.getD 254 0) y
  exact ⟨⟨x, hx, fun q _ => h q⟩, z, hz, fun q _ => k q⟩

theorem witness_PorEncCompletes :
    demo.ksFwd = some (keyExpand .aes128 0).1 ∧
      ∀ j < min (4 : BitVec 4).toNat demo.cfg.width, demo.iv j = some 0 ∧ demo.piece j = some zeroPiece :=
  ⟨demo_reads.ksFwd, fun j hj => ⟨demo_reads.iv j hj, demo_reads.piece j hj⟩⟩

theorem witness_PorDecCompletes :
    demo.ksInv = some (keyExpand .aes128 0).2 ∧
      ∀ j < min (1 : BitVec 4).toNat demo.cfg.width, demo.iv j = some 0 ∧ demo.piece j = some zeroPiece :=
  ⟨demo_reads.ksInv, fun j hj => ⟨demo_reads.iv j (by change j < 1 at hj; omega),
    demo_reads.piece j (by change j < 1 at hj; omega)⟩⟩

theorem witness_PotProveCompletes : demo.ksFwd = some (keyExpand .aes128 0).1 ∧ demo.seed = some 0 :=
  ⟨demo_reads.ksFwd, demo_reads.seed⟩

/-- FIRST = 0 and LAST = 15, which read SEED, and FIRST = LAST = 15, which do not. -/
theorem witness_PotVerifyCompletes :
    demo.ksInv = some (keyExpand .aes128 0).2 ∧ demo.seed = some 0 ∧
      (∀ k, (0 : BitVec 4).toNat - 1 ≤ k → k ≤ (15 : BitVec 4).toNat → demo.checkpoint k = some 0) ∧
      ∀ k, (15 : BitVec 4).toNat - 1 ≤ k → k ≤ (15 : BitVec 4).toNat → demo.checkpoint k = some 0 :=
  ⟨demo_reads.ksInv, demo_reads.seed, fun k _ hk => demo_reads.checkpoint k (Nat.lt_succ_of_le hk),
    fun k _ hk => demo_reads.checkpoint k (Nat.lt_succ_of_le hk)⟩

/-- KEYGEN with IDENT undefined, its first and its last byte, and with IDENT defined. -/
theorem witness_FaultsExactlyOnUndefinedInput :
    Instr.keygen.wellFormed = true ∧
    (readSet State.reset.cfg .keygen 0x300 = true ∧ State.reset.mem.get 0x300 = none) ∧
    (readSet State.reset.cfg .keygen 0x30F = true ∧ State.reset.mem.get 0x30F = none) ∧
    ∀ a, readSet demo.cfg .keygen a = true → demo.mem.get a ≠ none := by
  refine ⟨by decide, by decide, by decide, fun a ha => ?_⟩
  have h := within_eq_true.1 ha
  have hg := (Mem.read_eq_some_iff demo.mem identBase 16 0).1 demo_reads.ident (a - identBase) (by omega)
  rw [Nat.add_sub_cancel' h.1] at hg
  rw [hg]
  exact Option.some_ne_none _

/-- A command that stores and one that does not. -/
theorem witness_CompletionFrame :
    (∃ t, exec (.porEnc 4) demo = .next t) ∧ ∃ t, exec (.potVerify 4 1 3) demo = .next t :=
  ⟨(demo_por_next demo_reads 4 (by decide)).1, demo_potVerify_next demo_reads 4 1 3⟩

/-! ### The permutation -/

theorem witness_SboxDefinition : 15 < 16 ∧ gfMul 0x01 0x01 = 0x01 ∧ gfMul 0x53 0xCA = 0x01 ∧ (0xFF : Byte) ≠ 0 := by decide +kernel

/-- The default PERM beside either KEYEXP; the Blocks a forward and an inverse application pass through; the last row and
column. -/
theorem witness_DefaultFwdInvRoundsAndFwdBijective (ks : KeySchedule) (b : Block) :
    CipherSel.aes128.perm = .aes128 ∧ ({ perm := .aes128, keyExp := .custom 0 } : CipherSel).perm = .aes128 ∧ 3 < 4 ∧
    (∃ a : Nat → Block, a 0 = b ^^^ ks.extractLsb' 0 128 ∧
      ∀ r, 1 ≤ r → r ≤ 9 → a r = mixColumns (shiftRows (subBytes (a (r - 1)))) ^^^ ks.extractLsb' (128 * r) 128) ∧
    ∃ a : Nat → Block, a 0 = b ^^^ ks.extractLsb' 0 128 ∧
      ∀ r, 1 ≤ r → r ≤ 9 → a r = invMixColumns (invSubBytes (invShiftRows (a (r - 1)))) ^^^ ks.extractLsb' (128 * r) 128 := by
  refine ⟨rfl, rfl, by decide, ⟨fwdRounds ks (b ^^^ ks.extractLsb' 0 128), rfl, fun r hr _ => ?_⟩,
    invRounds ks (b ^^^ ks.extractLsb' 0 128), rfl, fun r hr _ => ?_⟩
  all_goals obtain ⟨r, rfl⟩ := Nat.exists_eq_add_of_le' hr; rfl

/-- The default KEYEXP beside either PERM; words 4, with the rotation, and 43, without; round keys 1 and 9 of the inverse
schedule. -/
theorem witness_DefaultKeyExpansion :
    CipherSel.aes128.keyExp = .aes128 ∧ ({ perm := .custom 0, keyExp := .aes128 } : CipherSel).keyExp = .aes128 ∧
    4 ≤ 4 ∧ 4 < 44 ∧ 4 % 4 = 0 ∧ 4 ≤ 43 ∧ 43 < 44 ∧ 43 % 4 ≠ 0 ∧ 3 < 4 ∧ 1 ≤ 1 ∧ 1 ≤ 9 ∧ 9 ≤ 9 ∧ 15 < 16 := by decide

/-- The rule's column example, and the last column. -/
theorem witness_MixColumnsRule :
    let s := Block.ofHex 0xdb135345000000000000000000000000
    s.byte 0 = 0xdb ∧ s.byte 1 = 0x13 ∧ s.byte 2 = 0x53 ∧ s.byte 3 = 0x45 ∧ 3 < 4 := by decide +kernel

/-- Instances of widths 4 and 12, counts 4 and 1, lane 0; and counts 4 and 4, lane 3. -/
theorem witness_PermWidthIndependent :
    demo.cfg.accepts 4 = true ∧ demo.cfg.accepts 1 = true ∧ demo12.cfg.accepts 4 = true ∧
      3 < min (4 : BitVec 4).toNat demo.cfg.width ∧ 3 < min (4 : BitVec 4).toNat demo12.cfg.width ∧
      0 < min (1 : BitVec 4).toNat demo.cfg.width ∧
      permFwdBlock demo.cfg.cipher = permFwdBlock demo12.cfg.cipher ∧
      permInvBlock demo.cfg.cipher = permInvBlock demo12.cfg.cipher ∧ demo.iter = demo12.iter ∧ demo.lane 3 = demo12.lane 3 ∧
      demo.ksFwd = demo12.ksFwd ∧ demo.ksInv = demo12.ksInv ∧
      (∃ t, exec (.permFwd 4) demo = .next t) ∧ (∃ t, exec (.permFwd 4) demo12 = .next t) ∧
      (∃ t, exec (.permInv 4) demo = .next t) ∧ (∃ t, exec (.permInv 4) demo12 = .next t) ∧
      ∃ t, exec (.permFwd 1) demo = .next t := by
  refine ⟨by decide, by decide, by decide, by decide, by decide, by decide, rfl, rfl, rfl, ?_, ?_, ?_, ?_, ?_, ?_, ?_, ?_⟩
  · rw [demo_reads.lane 3 (by decide), demo12_reads.lane 3 (by decide)]
  · rw [demo_reads.ksFwd, demo12_reads.ksFwd]
  · rw [demo_reads.ksInv, demo12_reads.ksInv]
  · exact (demo_perm_next demo_reads 4 (by decide)).1
  · exact (demo_perm_next demo12_reads 4 (by decide)).1
  · exact (demo_perm_next demo_reads 4 (by decide)).2
  · exact (demo_perm_next demo12_reads 4 (by decide)).2
  · exact (demo_perm_next demo_reads 1 (by decide)).1

theorem witness_PermRoundTrip :
    demo.ksFwd = some (keyExpand demo.cfg.cipher 0).1 ∧ demo.ksInv = some (keyExpand demo.cfg.cipher 0).2 ∧
      ∀ j < min (4 : BitVec 4).toNat demo.cfg.width, demo.lane j = some 0 :=
  ⟨demo_reads.ksFwd, demo_reads.ksInv, fun j hj => demo_reads.lane j hj⟩

/-! ### Proof-of-Replication and Proof-of-Time -/

/-- The first and the last block of a Piece (EncPassFeedback, DecPassFeedback, RecoverSeedRule, WrongIvChangesBlockZeroOnly,
ZeroPieceEncodesToTheChain). -/
theorem witness_pieces : zeroPiece.length = 256 ∧ 0 < zeroPiece.length ∧ 255 < zeroPiece.length ∧ 1 ≤ 1 ∧ 1 ≠ 0 := by
  rw [zeroPiece_length]; decide

theorem witness_PorRoundTrip :
    demo.ksFwd = some (keyExpand demo.cfg.cipher 0).1 ∧ demo.ksInv = some (keyExpand demo.cfg.cipher 0).2 ∧
      1 ≤ demo.iter.toNat ∧ 1 ≤ demo.breadth.toNat ∧
      ∀ j < min (4 : BitVec 4).toNat demo.cfg.width, demo.iv j = some 0 ∧ demo.piece j = some zeroPiece :=
  ⟨demo_reads.ksFwd, demo_reads.ksInv, by decide, by decide, fun j hj => ⟨demo_reads.iv j hj, demo_reads.piece j hj⟩⟩

theorem witness_PorWidthIndependent :
    demo.cfg.accepts 4 = true ∧ demo12.cfg.accepts 4 = true ∧
      3 < min (4 : BitVec 4).toNat demo.cfg.width ∧ 3 < min (4 : BitVec 4).toNat demo12.cfg.width ∧
      permFwdBlock demo.cfg.cipher = permFwdBlock demo12.cfg.cipher ∧
      permInvBlock demo.cfg.cipher = permInvBlock demo12.cfg.cipher ∧ demo.iter = demo12.iter ∧ demo.breadth = demo12.breadth ∧
      demo.iv 3 = demo12.iv 3 ∧ demo.piece 3 = demo12.piece 3 ∧ demo.ksFwd = demo12.ksFwd ∧ demo.ksInv = demo12.ksInv ∧
      (∃ t, exec (.porEnc 4) demo = .next t) ∧ (∃ t, exec (.porEnc 4) demo12 = .next t) ∧
      (∃ t, exec (.porDec 4) demo = .next t) ∧ ∃ t, exec (.porDec 4) demo12 = .next t := by
  refine ⟨by decide, by decide, by decide, by decide, rfl, rfl, rfl, rfl, ?_, ?_, ?_, ?_, ?_, ?_, ?_, ?_⟩
  · rw [demo_reads.iv 3 (by decide), demo12_reads.iv 3 (by decide)]
  · rw [demo_reads.piece 3 (by decide), demo12_reads.piece 3 (by decide)]
  · rw [demo_reads.ksFwd, demo12_reads.ksFwd]
  · rw [demo_reads.ksInv, demo12_reads.ksInv]
  · exact (demo_por_next demo_reads 4 (by decide)).1
  · exact (demo_por_next demo12_reads 4 (by decide)).1
  · exact (demo_por_next demo_reads 4 (by decide)).2
  · exact (demo_por_next demo12_reads 4 (by decide)).2

/-- CheckpointChain at its first and its last checkpoint. -/
theorem witness_CheckpointChain : 0 < 16 ∧ 15 < 16 := by decide

/-- The whole proof, and one interval at its end. -/
theorem witness_ProvedProofVerifies :
    demo.ksFwd = some (keyExpand demo.cfg.cipher 0).1 ∧ demo.ksInv = some (keyExpand demo.cfg.cipher 0).2 ∧
      demo.seed = some 0 ∧ (Instr.potVerify 16 0 15).wellFormed = true ∧ (Instr.potVerify 4 3 3).wellFormed = true :=
  ⟨demo_reads.ksFwd, demo_reads.ksInv, demo_reads.seed, by decide, by decide⟩

theorem checkpoint_setCheckpoints (s : State) (cps : List Block) (k : Nat) (hk : k < cps.length) :
    (s.setCheckpoints cps).finish.checkpoint k = some cps[k] :=
  Mem.readBlock_writeBlocks s.mem proofBase cps k hk

theorem potChain_length (f : Block → Block) (n : Nat) (c : Block) : (potChain f c n).length = n := by
  induction n generalizing c with
  | zero => rfl
  | succ n ih => rw [potChain, List.length_cons, ih]

theorem exists_other_block (b : Block) : ∃ c, c ≠ b := ⟨b + 1, by simp⟩

/-- Every checkpoint of a proof of 16, the first and the last among them; a range that holds checkpoint 15, and one that
holds only the checkpoint after 0. -/
theorem witness_ChangedCheckpointIsRejected :
    demo.ksFwd = some (keyExpand demo.cfg.cipher 0).1 ∧ demo.ksInv = some (keyExpand demo.cfg.cipher 0).2 ∧
      demo.seed = some 0 ∧ (Instr.potVerify 16 0 15).wellFormed = true ∧
      (Instr.potVerify 16 1 1).wellFormed = true ∧
      ((15 : BitVec 4).toNat ≤ 15 ∧ 15 ≤ (15 : BitVec 4).toNat) ∧
      ((1 : BitVec 4).toNat ≤ 0 + 1 ∧ 0 + 1 ≤ (1 : BitVec 4).toNat) ∧
      ∃ t, exec (.potProve 16) demo = .next t ∧ ∀ k < 16, ∃ c c', t.checkpoint k = some c ∧ c' ≠ c := by
  refine ⟨demo_reads.ksFwd, demo_reads.ksInv, demo_reads.seed, by decide, by decide, by decide, by decide, ?_⟩
  rw [exec, execPotProve, demo_reads.ksFwd, demo_reads.seed, needs_some, needs_some]
  refine ⟨_, rfl, fun k hk => ?_⟩
  rw [checkpoint_setCheckpoints _ _ k (by rw [potChain_length]; exact hk)]
  obtain ⟨c', h⟩ := exists_other_block _
  exact ⟨_, c', rfl, h⟩

/-- Instances that hold all the single one does; intervals 0 .. 7 and 8 .. 15, and 0 .. 0 and 1 .. 1. -/
theorem witness_SplitVerifyEqualsWhole :
    (0 : BitVec 4).toNat ≤ (7 : BitVec 4).toNat ∧ (8 : BitVec 4).toNat = (7 : BitVec 4).toNat + 1 ∧
      (8 : BitVec 4).toNat ≤ (15 : BitVec 4).toNat ∧ (1 : BitVec 4).toNat = (0 : BitVec 4).toNat + 1 ∧
      permInvBlock demo.cfg.cipher = permInvBlock demo.cfg.cipher ∧
      (∀ a, readSet demo.cfg (.potVerify 16 0 7) a = true → demo.mem.get a = demo.mem.get a) ∧
      (∃ t, exec (.potVerify 16 0 15) demo = .next t) ∧ (∃ t, exec (.potVerify 16 0 7) demo = .next t) ∧
      (∃ t, exec (.potVerify 16 8 15) demo = .next t) ∧ (∃ t, exec (.potVerify 16 0 1) demo = .next t) ∧
      (∃ t, exec (.potVerify 16 0 0) demo = .next t) ∧ ∃ t, exec (.potVerify 16 1 1) demo = .next t :=
  ⟨by decide, by decide, by decide, by decide, rfl, fun _ _ => rfl, demo_potVerify_next demo_reads _ _ _,
    demo_potVerify_next demo_reads _ _ _, demo_potVerify_next demo_reads _ _ _, demo_potVerify_next demo_reads _ _ _,
    demo_potVerify_next demo_reads _ _ _, demo_potVerify_next demo_reads _ _ _⟩

/-! ### Registers and the host window -/

theorem witness_CtrlRegister :
    (0xFFFFFFFD : Word).getLsbD 1 = false ∧ (2 : Word).getLsbD 1 = true ∧ (3 : Word).getLsbD 1 = true := by decide

/-- The first and the last reserved word of every gap, for W = 4. -/
theorem witness_ReservedOffsets :
    State.reset.cfg.width = 4 ∧
    ∀ a ∈ [0x01C, 0x0FC, 0x1B0, 0x1FC, 0x2B0, 0x2FC, 0x320, 0x3FC, 0x440, 0x4FC, 0x540, 0x5FC, 0x700, 0xFFFC, 0x14000, 0x1FFFC],
      (0x01C ≤ a ∧ a < 0x100) ∨ (0x1B0 ≤ a ∧ a < 0x200) ∨ (0x2B0 ≤ a ∧ a < 0x300) ∨ (0x320 ≤ a ∧ a < 0x400) ∨
      (0x400 + 16 * 4 ≤ a ∧ a < 0x500) ∨ (0x500 + 16 * 4 ≤ a ∧ a < 0x600) ∨ (0x700 ≤ a ∧ a < 0x10000) ∨
      0x10000 + 4096 * 4 ≤ a := by decide

/-- An idle engine whose LANE[0] and the first words of LANE[1] and KS_FWD are defined. -/
def idleLane : State :=
  { State.reset with mem := ((Mem.writeBlock [] 0x500 7).writeWord 0x510 8).writeWord 0x100 9 }

/-- The same engine running `perm.fwd 1`, whose write set is LANE[0]. -/
def runningLane : State := { idleLane with busy := true, cur := 0x102 }

/-- Each clause of R55: idle at the first and the last data word, busy at a written word's first and last, and at an
unwritten one. -/
theorem witness_HostAccessToOperands :
    idleLane.busy = false ∧ isData idleLane.cfg (4 * (0x40 : BitVec 15).toNat) = true ∧
      isData idleLane.cfg (4 * (0x4FFF : BitVec 15).toNat) = true ∧ idleLane.mem.readWord 0x100 = some 9 ∧
    runningLane.busy = true ∧ decode runningLane.cur = .ok (.permFwd 1) ∧
      isData runningLane.cfg (4 * (0x143 : BitVec 15).toNat) = true ∧
      (∃ m < 4, writeSet runningLane.cfg (.permFwd 1) (4 * (0x140 : BitVec 15).toNat + m) = true) ∧
      (∃ m < 4, writeSet runningLane.cfg (.permFwd 1) (4 * (0x143 : BitVec 15).toNat + m) = true) ∧
      (∀ m < 4, writeSet runningLane.cfg (.permFwd 1) (4 * (0x144 : BitVec 15).toNat + m) = false) ∧
      runningLane.mem.readWord 0x510 = some 8 := by decide +kernel

theorem witness_LittleEndianWords :
    idleLane.busy = false ∧ isData idleLane.cfg (4 * (0x140 : BitVec 15).toNat) = true ∧
      isData idleLane.cfg (4 * (0x4FFF : BitVec 15).toNat) = true ∧
      ∀ m < 4, idleLane.mem.get (4 * (0x140 : BitVec 15).toNat + m) = some (if m = 0 then 7 else 0) := by decide +kernel

/-- The first and the last byte of a word of an idle engine, and of a word outside a running command's write set. -/
theorem witness_UndefinedReadFaults :
    (runningLane.busy = true ∧ decode runningLane.cur = .ok (.permFwd 1) ∧
      (∀ k < 4, writeSet runningLane.cfg (.permFwd 1) (4 * (0x145 : BitVec 15).toNat + k) = false) ∧
      isData runningLane.cfg (4 * (0x145 : BitVec 15).toNat) = true ∧
      runningLane.mem.get (4 * (0x145 : BitVec 15).toNat + 0) = none ∧
      runningLane.mem.get (4 * (0x145 : BitVec 15).toNat + 3) = none) ∧
    State.reset.busy = false ∧ isData State.reset.cfg (4 * (0x140 : BitVec 15).toNat) = true ∧
      State.reset.mem.get (4 * (0x140 : BitVec 15).toNat + 0) = none ∧
      State.reset.mem.get (4 * (0x140 : BitVec 15).toNat + 3) = none := by decide +kernel

theorem witness_ReadsAreIdempotent : idleLane.busy = false ∧ ∃ t, hostRead 0x140 idleLane = .next t :=
  ⟨rfl, next_of_isNext (by decide +kernel)⟩

/-- An instance whose window is at 0x20000. -/
def based : State := State.resetWith { Config.default with baseIndex := 1 }

/-- Each way an access is inexpressible, at the edges of the window, and the first and the last word of it. -/
theorem witness_OnlyAlignedWordsAreExpressible :
    { based with inputs := [.access 0x20004 2 none] }.inputs = .access 0x20004 2 none :: [] ∧ (2 ≠ 4) ∧
      0x20001 % 4 ≠ 0 ∧ 0x1FFFC < based.cfg.baseIndex * 0x20000 ∧ based.cfg.baseIndex * 0x20000 + 0x20000 ≤ 0x40000 ∧
      0x20000 = based.cfg.baseIndex * 0x20000 + 4 * (0 : BitVec 15).toNat ∧
      0x3FFFC = based.cfg.baseIndex * 0x20000 + 4 * (0x7FFF : BitVec 15).toNat := by decide

/-! ### Errors and reset -/

/-- A rejection that overwrites an earlier code. -/
theorem witness_ErrorsNeverBlockLaunches :
    let s := { State.reset with err := true, errcode := 8 }
    (4 : Word).getLsbD 2 = true ∧ s.err = true ∧ s.busy = false ∧ check s 0x9 = some .illegalOp := by decide

/-- A hard reset of an engine that runs a command. -/
theorem witness_HardResetValues :
    { runningLane with inputs := [.hardReset] }.inputs = .hardReset :: [] ∧ runningLane.busy = true := ⟨rfl, rfl⟩

theorem witness_SoftResetPseudocode :
    (2 : Word).getLsbD 1 = true ∧ runningLane.busy = true ∧ decode runningLane.cur = .ok (.permFwd 1) ∧
      idleLane.busy = false := by decide

/-- The largest accepted counts and ranges of the default configuration. -/
theorem witness_ResetStateRejectsPorAndPot :
    (Instr.permFwd 4).wellFormed = true ∧ Config.default.accepts (4 : BitVec 4).toNat = true ∧
      (Instr.potVerify 16 0 15).wellFormed = true ∧ (Instr.potVerify 4 3 3).wellFormed = true ∧
      (hostWrite 4 0x404 (State.resetWith Config.default)).err = true := by decide

theorem witness_PermWithIterZeroIsIdentity :
    { demo with iter := 0 }.iter = 0 ∧ (∃ t, exec (.permFwd 4) { demo with iter := 0 } = .next t) ∧
      ∃ t, exec (.permInv 4) { demo with iter := 0 } = .next t :=
  ⟨rfl, demo_perm_next (demo_of rfl) 4 (by decide)⟩

/-! ### The whole machine -/

/-- StepKeepsInvariant and InvariantExcludesRefusal: an engine that runs `perm.fwd 1` and is about
to refuse a write to ITER. -/
theorem witness_StepKeepsInvariant :
    let s := { runningLane with inputs := [.host { write := true, wa := 5, d := 1 }] }
    s.Inv ∧ ∃ t, step s = .next t := by
  refine ⟨⟨?_, ?_, ?_, ?_, ?_, ?_⟩, next_of_isNext (by decide +kernel)⟩
  · decide +kernel
  · decide +kernel
  · decide
  · decide
  · decide
  · intro _; decide

/-- The host's access at the first and the last address of a window, a turn of an engine and a hard reset. -/
theorem witness_ConfigurationIsConstantAndInstancesIndependent :
    pair.disjoint ∧ pair.members[1]? = some based ∧ based.cfg.baseIndex * 0x20000 ≤ 0x20000 ∧
      0x3FFFC < based.cfg.baseIndex * 0x20000 + 0x20000 ∧
      ∀ i ∈ [SystemInput.bus 0x20000 4 none, .bus 0x3FFFC 4 (some 0), .engine 0, .hardReset 1],
        (match stepSystem { pair with inputs := [i] } with
         | .next _ => true
         | _ => false) = true := by decide

theorem witness_RunningCommandKeepsItsInputs :
    let x : HostTxn := { write := true, wa := 5, d := 1 }
    let s := { State.reset.loadCommand 0 with inputs := [.host x] }
    s.inputs = .host x :: [] ∧ s.busy = true ∧ ¬(x.write = true ∧ x.wa = 2 ∧ x.d.getLsbD 1 = true) ∧
      (∃ t, step s = .next t) ∧ ∃ u, exec .nop s = .next u :=
  ⟨rfl, rfl, by decide, next_of_isNext (by decide), next_of_isNext (by decide)⟩

/-- A run of the engine, a soft reset by a transaction and by a bridge's access, and a hard reset. -/
theorem witness_RunningCommandEndsByCompletionOrReset :
    ∀ i ∈ [Input.engine, .host { write := true, wa := 2, d := 2 }, .access 8 4 (some 3), .hardReset],
      let s := { State.reset.loadCommand 0 with inputs := [i] }
      s.busy = true ∧ look State.busy (step s) = some false := by decide

/-- POT_VERIFY of interval 0 with KS_INV = 0, ITER = 4, checkpoint 0 = 0 and SEED = Inv(0, 0). -/
theorem witness_VokRisesOnlyByVerify :
    let s := { State.reset with
      busy := true, cur := 0x00040007, iter := 4
      mem := ((Mem.writeSchedule [] ksInvBase 0).writeBlock seedBase (aesInv 0 0)).writeBlock proofBase 0 }
    s.inputs = [] ∧ s.vok = false ∧ look State.vok (step s) = some true := by decide +kernel

end Sys2Proof.Tests
end

section
/-! SUPPORT. The host window seen by word class, and all that a host write, a completion and a step can do. -/

namespace Sys2Proof.Machine

/-! ## Word classes of the host window (R82) -/

/-- No data window covers a register's offset, so a data-window offset is one of data. -/
theorem target_of_isData {c : Config} {a : Nat} (h : isData c a = true) : target c a = .data := by
  have hd := (isData_iff c a).1 h
  unfold target
  split
  case h_8 => rw [if_pos h]
  all_goals omega

/-- Above the registers, an offset outside every data window is reserved (R49, R82). -/
theorem target_of_not_isData {c : Config} {a : Nat} (ha : 0x1C ≤ a) (h : isData c a = false) :
    target c a = .reserved := by
  unfold target
  split
  case h_8 => rw [if_neg (by simp [h])]
  all_goals omega

theorem isData_of_target {c : Config} {a : Nat} (h : target c a = .data) : isData c a = true := by
  unfold target at h
  split at h
  case h_8 =>
    split at h
    · assumption
    · cases h
  all_goals cases h

theorem eq_ctrl_of_target {c : Config} {a : Nat} (h : target c a = .ctrl) : a = 8 := by
  unfold target at h
  split at h
  case h_3 => rfl
  case h_8 => split at h <;> cases h
  all_goals cases h

/-- The word address of CTRL is 2 (R34). -/
theorem wa_of_target_ctrl {c : Config} {wa : BitVec 15} (h : target c (byteOffset wa) = .ctrl) : wa = 2 := by
  have := eq_ctrl_of_target h
  apply BitVec.eq_of_toNat_eq
  simp only [byteOffset] at this
  show wa.toNat = 2
  omega

/-- Each of the four bytes of an aligned word that starts in a data window lies in it (R82). -/
theorem isData_of_word {c : Config} {wa : BitVec 15} {a : Nat} (h : isData c (byteOffset wa) = true)
    (ha : within (byteOffset wa) 4 a = true) : isData c a = true := by
  rw [isData_iff] at h ⊢
  rw [within_eq_true] at ha
  unfold byteOffset at h ha
  omega

/-! ## Host writes and host transactions -/

/-- What a write to STATUS does, field by field (R35). -/
theorem writeStatus_eq (d : Word) (s : State) :
    writeStatus d s =
      { s with
        done := s.done && !d.getLsbD 1
        err := s.err && !d.getLsbD 2
        errcode := if d.getLsbD 2 then 0 else s.errcode } := by
  unfold writeStatus
  cases d.getLsbD 1 <;> cases d.getLsbD 2 <;> simp [State.clearDone, State.acknowledge]

/-- All that a host write of `d` to word `wa` can make of the state (R32 to R38, R55, R140). -/
inductive HostWriteResult (s : State) (wa : BitVec 15) (d : Word) : State → Prop
  /-- ID, CAPS or a reserved offset. -/
  | ignored : HostWriteResult s wa d s
  /-- CTRL with d[1] = 0. -/
  | enable (b : Bool) : HostWriteResult s wa d (s.setIe b)
  /-- CTRL with d[1] = 1. -/
  | softReset (hwa : wa = 2) (hd : d.getLsbD 1 = true) : HostWriteResult s wa d s.softReset
  /-- STATUS. -/
  | status : HostWriteResult s wa d (writeStatus d s)
  /-- A launch that Check rejects, or any write that a running command refuses. -/
  | rejected (e : ErrCode) : HostWriteResult s wa d (s.reject e)
  /-- A launch. -/
  | accepted (hidle : s.busy = false) (hcheck : check s d = none) : HostWriteResult s wa d (s.accept d)
  /-- ITER. -/
  | iter (hidle : s.busy = false) : HostWriteResult s wa d (s.setIter d)
  /-- BREADTH. -/
  | breadth (hidle : s.busy = false) : HostWriteResult s wa d (s.setBreadth d)
  /-- A word of a data window. -/
  | store (hidle : s.busy = false) (hdata : isData s.cfg (byteOffset wa) = true) :
      HostWriteResult s wa d (s.setMem (s.mem.writeWord (byteOffset wa) d))

theorem hostWriteResult_launch (s : State) (wa : BitVec 15) (d : Word) : HostWriteResult s wa d (launch d s) := by
  rcases launch_cases d s with ⟨-, he⟩ | ⟨-, e, -, he⟩ | ⟨hidle, hcheck, he⟩ <;> rw [he]
  · exact .rejected .busy
  · exact .rejected e
  · exact .accepted hidle hcheck

theorem hostWriteResult_whenIdle {s t : State} {wa : BitVec 15} {d : Word}
    (h : s.busy = false → HostWriteResult s wa d t) : HostWriteResult s wa d (s.whenIdle t) := by
  rcases whenIdle_cases s t with ⟨-, he⟩ | ⟨hidle, he⟩ <;> rw [he]
  · exact .rejected .busy
  · exact h hidle

theorem hostWrite_result (wa : BitVec 15) (d : Word) (s : State) : HostWriteResult s wa d (hostWrite wa d s) := by
  unfold hostWrite
  split
  case h_1 => exact .ignored
  case h_2 => exact .ignored
  case h_3 hctrl =>
    unfold writeCtrl
    split
    · next hd => exact .softReset (wa_of_target_ctrl hctrl) hd
    · exact .enable _
  case h_4 => exact .status
  case h_5 => exact hostWriteResult_launch s wa d
  case h_6 => exact hostWriteResult_whenIdle .iter
  case h_7 => exact hostWriteResult_whenIdle .breadth
  case h_8 hdata => exact hostWriteResult_whenIdle fun hidle => .store hidle (isData_of_target hdata)
  case h_9 => exact .ignored

/-- All that a host transaction can do: a read only answers (R86), a write gives its result. -/
theorem hostTransaction_cases {x : HostTxn} {s t : State} (h : hostTransaction x s = .next t) :
    (x.write = false ∧ ∃ w, t = s.answer w) ∨ (x.write = false ∧ s.busy = true ∧ t = s.drawUnspecified) ∨
      (x.write = true ∧ t = hostWrite x.wa x.d s) := by
  unfold hostTransaction at h
  cases hx : x.write with
  | true => simp only [hx, if_true, Host.Outcome.next.injEq] at h; exact .inr (.inr ⟨rfl, h.symm⟩)
  | false =>
    simp only [hx, Bool.false_eq_true, if_false] at h
    rcases hostRead_frame h with hw | ⟨hb, ht⟩
    · exact .inl ⟨rfl, hw⟩
    · exact .inr (.inl ⟨rfl, hb, ht⟩)

/-! ## Completions -/

/-- `m'` is `m` after stores to offsets of `p` alone. -/
structure Mem.StoresWithin (m m' : Mem) (p : Nat → Bool) : Prop where
  /-- The canonical form is kept. -/
  wf : m.wf → m'.wf
  /-- What is defined now was so before or is at a stored offset. -/
  entries : ∀ c ∈ m', c ∈ m ∨ p c.1 = true
  /-- Every other byte is as before. -/
  frame : ∀ a, p a = false → m'.get a = m.get a

theorem Mem.StoresWithin.refl (m : Mem) (p : Nat → Bool) : m.StoresWithin m p := ⟨id, fun _ => .inl, fun _ _ => rfl⟩

theorem Mem.StoresWithin.mono {m m' : Mem} {p q : Nat → Bool} (h : m.StoresWithin m' p)
    (hpq : ∀ a, p a = true → q a = true) : m.StoresWithin m' q where
  wf := h.wf
  entries c hc := (h.entries c hc).imp_right (hpq c.1)
  frame a ha := h.frame a (Bool.eq_false_iff.2 fun hp => by simp [hpq a hp] at ha)

theorem Mem.StoresWithin.trans {m m' m'' : Mem} {p : Nat → Bool} (h : m.StoresWithin m' p)
    (h' : m'.StoresWithin m'' p) : m.StoresWithin m'' p where
  wf hm := h'.wf (h.wf hm)
  entries c hc := (h'.entries c hc).elim (h.entries c) .inr
  frame a ha := (h'.frame a ha).trans (h.frame a ha)

theorem within_eq_false {base size a : Nat} : within base size a = false ↔ a < base ∨ base + size ≤ a := by
  simp [within]; omega

theorem Mem.write_storesWithin (m : Mem) (a n : Nat) (v : BitVec (8 * n)) :
    m.StoresWithin (m.write a n v) (within a n) where
  wf h := Mem.write_wf h a n v
  entries _ hc := (Mem.mem_write hc).imp_right within_eq_true.2
  frame a' ha := Mem.get_write_outside m a n v a' (within_eq_false.1 ha)

theorem Mem.writeBlocks_storesWithin (m : Mem) (a : Nat) (bs : List Block) :
    m.StoresWithin (m.writeBlocks a bs) (within a (16 * bs.length)) where
  wf h := Mem.writeBlocks_wf h a bs
  entries _ hc := (Mem.mem_writeBlocks hc).imp_right within_eq_true.2
  frame a' ha := Mem.get_writeBlocks_outside m a bs a' (within_eq_false.1 ha)

theorem Mem.writePieces_storesWithin (m : Mem) (a : Nat) (ps : List Piece) (hp : ∀ p ∈ ps, p.length = 256) :
    m.StoresWithin (m.writePieces a ps) (within a (4096 * ps.length)) where
  wf h := Mem.writePieces_wf h a ps
  entries _ hc := (Mem.mem_writePieces hp hc).imp_right within_eq_true.2
  frame a' ha := Mem.get_writePieces_outside m a ps hp a' (within_eq_false.1 ha)

/-- `t` is a completion of `s` (R143) whose Effect stores at offsets of `p` alone. -/
def State.CompletesWithin (s t : State) (p : Nat → Bool) : Prop :=
  ∃ m, s.mem.StoresWithin m p ∧ t = (s.setMem m).finish

/-! ### What each Effect stores, and where -/

theorem length_encPass (f : Block → Block) (v : Block) (x : Piece) : (encPass f v x).length = x.length := by
  induction x generalizing v with
  | nil => rfl
  | cons b x ih => simp [encPass, ih]

theorem length_decPass (g : Block → Block) (v : Block) (y : Piece) : (decPass g v y).length = y.length := by
  induction y generalizing v with
  | nil => rfl
  | cons b y ih => simp [decPass, ih]

theorem length_porEncode (f : Block → Block) (b : Nat) (v : Block) (x : Piece) :
    (porEncode f b v x).length = x.length := by
  induction b generalizing v x with
  | zero => rfl
  | succ b ih => rw [porEncode, ih, length_encPass]

theorem length_porDecode (g : Block → Block) (b : Nat) (iv : Block) (x : Piece) :
    (porDecode g b iv x).length = x.length := by
  induction b, iv, x using porDecode.induct g with
  | case1 => rfl
  | case2 iv x => exact length_decPass g iv x
  | case3 b iv x ih => rw [porDecode, ih, length_decPass]

theorem length_potChain (f : Block → Block) (c : Block) (v : Nat) : (potChain f c v).length = v := by
  induction v generalizing c with
  | zero => rfl
  | succ v ih => simp [potChain, ih]

/-- New lane values go to LANE[0..N−1] alone (R200). -/
theorem lanes_storesWithin {s : State} {n : BitVec 4} {bs : List Block} (hbs : s.lanes n = some bs)
    (f : Block → Block) :
    s.mem.StoresWithin (s.mem.writeBlocks laneBase (bs.map f)) (within laneBase (16 * slots s.cfg n)) := by
  have h := s.mem.writeBlocks_storesWithin laneBase (bs.map f)
  rwa [List.length_map, Mem.readBlocks_length hbs] at h

/-- New pieces as long as the old ones go to PIECE[0..K−1] alone (R236). -/
theorem pieces_storesWithin {s : State} {n : BitVec 4} {vs : List Block} {ps : List Piece} (hvs : s.ivs n = some vs)
    (hps : s.pieces n = some ps) {f : Block → Piece → Piece} (hf : ∀ v p, (f v p).length = p.length) :
    s.mem.StoresWithin (s.mem.writePieces pieceBase (List.zipWith f vs ps))
      (within pieceBase (4096 * slots s.cfg n)) := by
  obtain ⟨hlen, hall⟩ := Mem.readPieces_lengths hps
  have h256 : ∀ q ∈ List.zipWith f vs ps, q.length = 256 := fun q hq => by
    obtain ⟨j, hj, rfl⟩ := List.getElem_of_mem hq
    rw [List.getElem_zipWith, hf, hall _ (List.getElem_mem _)]
  have h := s.mem.writePieces_storesWithin pieceBase _ h256
  rwa [List.length_zipWith, Mem.readBlocks_length hvs, hlen, Nat.min_self] at h

theorem execKeygen_completes {s t : State} (h : execKeygen s = .next t) :
    s.CompletesWithin t (writeSet s.cfg .keygen) := by
  obtain ⟨id, -, h⟩ := needs_eq_next h
  injection h with h
  exact ⟨_, .trans (.mono (Mem.write_storesWithin _ ksFwdBase 176 _) fun a ha => by simp [writeSet, ha])
    (.mono (Mem.write_storesWithin _ ksInvBase 176 _) fun a ha => by simp [writeSet, ha]), h.symm⟩

theorem execPermFwd_completes {n : BitVec 4} {s t : State} (h : execPermFwd n s = .next t) :
    s.CompletesWithin t (writeSet s.cfg (.permFwd n)) := by
  obtain ⟨ks, -, h⟩ := needs_eq_next h
  obtain ⟨bs, hbs, h⟩ := needs_eq_next h
  injection h with h
  exact ⟨_, lanes_storesWithin hbs _, h.symm⟩

theorem execPermInv_completes {n : BitVec 4} {s t : State} (h : execPermInv n s = .next t) :
    s.CompletesWithin t (writeSet s.cfg (.permInv n)) := by
  obtain ⟨ks, -, h⟩ := needs_eq_next h
  obtain ⟨bs, hbs, h⟩ := needs_eq_next h
  injection h with h
  exact ⟨_, lanes_storesWithin hbs _, h.symm⟩

theorem execPorEnc_completes {n : BitVec 4} {s t : State} (h : execPorEnc n s = .next t) :
    s.CompletesWithin t (writeSet s.cfg (.porEnc n)) := by
  obtain ⟨ks, -, h⟩ := needs_eq_next h
  obtain ⟨vs, hvs, h⟩ := needs_eq_next h
  obtain ⟨ps, hps, h⟩ := needs_eq_next h
  injection h with h
  exact ⟨_, pieces_storesWithin hvs hps (length_porEncode _ _), h.symm⟩

theorem execPorDec_completes {n : BitVec 4} {s t : State} (h : execPorDec n s = .next t) :
    s.CompletesWithin t (writeSet s.cfg (.porDec n)) := by
  obtain ⟨ks, -, h⟩ := needs_eq_next h
  obtain ⟨vs, hvs, h⟩ := needs_eq_next h
  obtain ⟨ps, hps, h⟩ := needs_eq_next h
  injection h with h
  exact ⟨_, pieces_storesWithin hvs hps (length_porDecode _ _), h.symm⟩

theorem execPotProve_completes {v : BitVec 5} {s t : State} (h : execPotProve v s = .next t) :
    s.CompletesWithin t (writeSet s.cfg (.potProve v)) := by
  obtain ⟨ks, -, h⟩ := needs_eq_next h
  obtain ⟨seed, -, h⟩ := needs_eq_next h
  injection h with h
  refine ⟨_, .mono (Mem.writeBlocks_storesWithin _ proofBase _) fun a ha => ?_, h.symm⟩
  rwa [length_potChain] at ha

theorem execPotVerify_sets_vok {v : BitVec 5} {first last : BitVec 4} {s t : State}
    (h : execPotVerify v first last s = .next t) : ∃ b, t = (s.setVok b).finish := by
  obtain ⟨ks, -, h⟩ := needs_eq_next h
  obtain ⟨prev, -, h⟩ := needs_eq_next h
  obtain ⟨cps, -, h⟩ := needs_eq_next h
  injection h with h
  exact ⟨_, h.symm⟩

/-- All that a completion can do (R143, R146): POT_VERIFY sets VOK, any other command stores in its write set. -/
theorem exec_cases {i : Instr} {s t : State} (h : exec i s = .next t) :
    s.CompletesWithin t (writeSet s.cfg i) ∨
      ∃ v first last b, i = .potVerify v first last ∧ t = (s.setVok b).finish := by
  cases i with
  | nop =>
    injection h with h
    exact .inl ⟨s.mem, .refl _ _, h.symm⟩
  | keygen => exact .inl (execKeygen_completes h)
  | permFwd n => exact .inl (execPermFwd_completes h)
  | permInv n => exact .inl (execPermInv_completes h)
  | porEnc n => exact .inl (execPorEnc_completes h)
  | porDec n => exact .inl (execPorDec_completes h)
  | potProve v => exact .inl (execPotProve_completes h)
  | potVerify v first last =>
    obtain ⟨b, hb⟩ := execPotVerify_sets_vok h
    exact .inr ⟨v, first, last, b, rfl, hb⟩

/-! ## Turns and steps -/

/-- All that the engine's turn can do when it answers a next state (R143). -/
theorem engineTurn_cases {s t : State} (h : engineTurn s = .next t) :
    (s.busy = false ∧ t = s) ∨ (s.busy = true ∧ ∃ i, decode s.cur = .ok i ∧ exec i s = .next t) := by
  unfold engineTurn at h
  split at h
  · next hb =>
    split at h
    · next i hd => exact .inr ⟨hb, i, hd, h⟩
    · cases h
  · next hb =>
    injection h with h
    exact .inl ⟨Bool.eq_false_iff.2 hb, h.symm⟩

/-- The engine has the turn, and what remains to happen after it is `rest` (log entry 4). -/
def State.EngineNext (s : State) (rest : List Input) : Prop :=
  s.inputs = .engine :: rest ∨ (s.inputs = [] ∧ rest = [])

/-- All that a step can be when it answers a next state (R89): the engine's turn, a transaction from the host or a bridge, or
a hard reset. -/
theorem step_cases {s t : State} (h : step s = .next t) :
    ∃ rest, (s.EngineNext rest ∧ engineTurn (s.setInputs rest) = .next t) ∨
      (∃ x, (s.inputs = .host x :: rest ∨
          ∃ a w d, s.inputs = .access a w d :: rest ∧ expressible s.cfg a w d = some x) ∧
        hostTransaction x (s.setInputs rest) = .next t) ∨
      (s.inputs = .hardReset :: rest ∧ t = (s.setInputs rest).hardReset) := by
  have hs : takeTurn s = .next t := h
  rcases takeTurn_cases s with ⟨hin, he⟩ |
    ⟨i, rest, hin, ⟨rfl, he⟩ | ⟨x, rfl, he⟩ | ⟨a, w, d, rfl, he⟩ | ⟨rfl, he⟩⟩ <;> rw [he] at hs
  · have hsame : s.setInputs [] = s := by rw [← hin]; rfl
    exact ⟨[], .inl ⟨.inr ⟨hin, rfl⟩, hsame.symm ▸ hs⟩⟩
  · exact ⟨rest, .inl ⟨.inl hin, hs⟩⟩
  · exact ⟨rest, .inr (.inl ⟨x, .inl hin, hs⟩)⟩
  · rcases bridgeAccess_cases a w d (s.setInputs rest) with ⟨x, hx, hb⟩ | ⟨-, hb⟩ <;> rw [hb] at hs
    · exact ⟨rest, .inr (.inl ⟨x, .inr ⟨a, w, d, hin, hx⟩, hs⟩)⟩
    · cases hs
  · injection hs with hs
    exact ⟨rest, .inr (.inr ⟨hin, hs.symm⟩)⟩

end Sys2Proof.Machine
end

section
/-! The invariant of Safety.lean: it holds at reset and every step keeps it. -/

namespace Sys2Proof.Machine

/-! ## Each update of the state keeps the invariant -/

/-- A legal checkpoint count fits PROOF (R47, R117). -/
theorem le_sixteen_of_vparError {v : BitVec 5} (h : vparError v = none) : v.toNat ≤ 16 := by
  have hmem : v.toNat ∈ legalCheckpointCounts := by simpa [vparError] using h
  simp only [legalCheckpointCounts, List.mem_cons, List.not_mem_nil, or_false] at hmem
  omega

/-- A command that passes its checks writes in the data windows alone (R82, R146). -/
theorem isData_of_writeSet {s : State} {i : Instr} {a : Nat} (hchk : instrError s i = none)
    (h : writeSet s.cfg i a = true) : isData s.cfg a = true := by
  rw [isData_iff]
  have hslots := slots_le_width s.cfg
  cases i <;> simp only [writeSet, Bool.or_eq_true, within_eq_true, Bool.false_eq_true, ksFwdBase, ksInvBase, laneBase,
    pieceBase, proofBase] at h
  case keygen => omega
  case permFwd n | permInv n | porEnc n | porDec n => have := hslots n; omega
  case potProve v =>
    have := le_sixteen_of_vparError (Option.or_eq_none_iff.1 hchk).1
    omega

theorem ErrCode.code_ne_zero (e : ErrCode) : e.code ≠ 0 := by cases e <;> decide

theorem ErrCode.code_le_nine (e : ErrCode) : e.code.toNat ≤ 9 := by cases e <;> decide

namespace State.Inv

variable {s t : State}

/-- An idle state needs no more than well-placed memory and a consistent error code. -/
theorem of_idle (hidle : t.busy = false) (hwf : t.mem.wf) (hdata : ∀ c ∈ t.mem, isData t.cfg c.1 = true)
    (hzero : t.errcode = 0 ↔ t.err = false) (hknown : t.errcode.toNat ≤ 9) : t.Inv where
  memWf := hwf
  memData := hdata
  errcodeZero := hzero
  errcodeKnown := hknown
  runningVok hb := by simp [hidle] at hb
  runningChecked hb := by simp [hidle] at hb

theorem setInputs (h : s.Inv) (is : List Input) : (s.setInputs is).Inv :=
  { h with runningChecked := fun hb => (check_congr rfl rfl rfl _).trans (h.runningChecked hb) }

theorem answer (h : s.Inv) (w : Word) : (s.answer w).Inv :=
  { h with runningChecked := fun hb => (check_congr rfl rfl rfl _).trans (h.runningChecked hb) }

theorem drawUnspecified (h : s.Inv) : s.drawUnspecified.Inv :=
  { h with runningChecked := fun hb => (check_congr rfl rfl rfl _).trans (h.runningChecked hb) }

theorem setIe (h : s.Inv) (b : Bool) : (s.setIe b).Inv :=
  { h with runningChecked := fun hb => (check_congr rfl rfl rfl _).trans (h.runningChecked hb) }

theorem clearDone (h : s.Inv) : s.clearDone.Inv :=
  { h with runningChecked := fun hb => (check_congr rfl rfl rfl _).trans (h.runningChecked hb) }

theorem acknowledge (h : s.Inv) : s.acknowledge.Inv :=
  { h with
    errcodeZero := by simp
    errcodeKnown := by simp
    runningChecked := fun hb => (check_congr rfl rfl rfl _).trans (h.runningChecked hb) }

theorem reject (h : s.Inv) (e : ErrCode) : (s.reject e).Inv :=
  { h with
    errcodeZero := ⟨fun h0 => absurd h0 e.code_ne_zero, nofun⟩
    errcodeKnown := e.code_le_nine
    runningChecked := fun hb => (check_congr rfl rfl rfl _).trans (h.runningChecked hb) }

theorem accept (h : s.Inv) {d : Word} (hcheck : check s d = none) : (s.accept d).Inv :=
  { h with
    runningVok := fun _ => rfl
    runningChecked := fun _ => (check_congr rfl rfl rfl d).trans hcheck }

theorem setIter (h : s.Inv) (hidle : s.busy = false) (v : Word) : (s.setIter v).Inv :=
  of_idle hidle h.memWf h.memData h.errcodeZero h.errcodeKnown

theorem setBreadth (h : s.Inv) (hidle : s.busy = false) (v : Word) : (s.setBreadth v).Inv :=
  of_idle hidle h.memWf h.memData h.errcodeZero h.errcodeKnown

/-- Stores to data windows keep the invariant. -/
theorem setMem (h : s.Inv) {m : Mem} {p : Nat → Bool} (hm : s.mem.StoresWithin m p)
    (hp : ∀ a, p a = true → isData s.cfg a = true) : (s.setMem m).Inv :=
  { h with
    memWf := hm.wf h.memWf
    memData := fun c hc => (hm.entries c hc).elim (h.memData c) (hp c.1)
    runningChecked := fun hb => (check_congr rfl rfl rfl _).trans (h.runningChecked hb) }

/-- Bytes that become undefined keep it. -/
theorem undefine (h : s.Inv) (p : Nat → Bool) : (s.setMem (s.mem.undefine p)).Inv :=
  { h with
    memWf := Mem.undefine_wf h.memWf p
    memData := fun c hc => h.memData c (Mem.mem_undefine hc)
    runningChecked := fun hb => (check_congr rfl rfl rfl _).trans (h.runningChecked hb) }

theorem abandon (h : s.Inv) : s.abandon.Inv := by
  unfold State.abandon
  split
  · split
    · exact h.undefine _
    · exact h
  · exact h

theorem resetControl (hwf : s.mem.wf) (hdata : ∀ c ∈ s.mem, isData s.cfg c.1 = true) : s.resetControl.Inv :=
  of_idle rfl hwf hdata (by simp) (by simp)

theorem softReset (h : s.Inv) : s.softReset.Inv := resetControl h.abandon.memWf h.abandon.memData

theorem hardReset (s : State) : s.hardReset.Inv := resetControl .nil (by simp)

theorem finish (h : s.Inv) : s.finish.Inv := of_idle rfl h.memWf h.memData h.errcodeZero h.errcodeKnown

theorem finish_setVok (h : s.Inv) (b : Bool) : (s.setVok b).finish.Inv :=
  of_idle rfl h.memWf h.memData h.errcodeZero h.errcodeKnown

/-! ## Each turn keeps the invariant -/

theorem writeStatus (h : s.Inv) (d : Word) : (Machine.writeStatus d s).Inv := by
  rw [writeStatus_eq]
  exact { h with
    errcodeZero := by
      cases d.getLsbD 2 with
      | true => simp
      | false => simpa using h.errcodeZero
    errcodeKnown := by cases d.getLsbD 2 <;> simp [h.errcodeKnown]
    runningChecked := fun hb => (check_congr rfl rfl rfl _).trans (h.runningChecked hb) }

theorem writeWord (h : s.Inv) {wa : BitVec 15} (hdata : isData s.cfg (byteOffset wa) = true) (d : Word) :
    (s.setMem (s.mem.writeWord (byteOffset wa) d)).Inv :=
  h.setMem (s.mem.write_storesWithin _ 4 d) fun _ => isData_of_word hdata

theorem hostWriteResult (h : s.Inv) {wa : BitVec 15} {d : Word} (hr : HostWriteResult s wa d t) : t.Inv := by
  cases hr with
  | ignored => exact h
  | enable b => exact h.setIe b
  | softReset => exact h.softReset
  | status => exact h.writeStatus d
  | rejected e => exact h.reject e
  | accepted _ hcheck => exact h.accept hcheck
  | iter hidle => exact h.setIter hidle d
  | breadth hidle => exact h.setBreadth hidle d
  | store _ hdata => exact h.writeWord hdata d

theorem hostTransaction (h : s.Inv) {x : HostTxn} (hx : Machine.hostTransaction x s = .next t) : t.Inv := by
  rcases hostTransaction_cases hx with ⟨-, w, rfl⟩ | ⟨-, -, rfl⟩ | ⟨-, rfl⟩
  · exact h.answer w
  · exact h.drawUnspecified
  · exact h.hostWriteResult (hostWrite_result _ _ s)

/-- The running command passes Check, so its stores stay inside the data windows. -/
theorem engineTurn (h : s.Inv) (ht : Machine.engineTurn s = .next t) : t.Inv := by
  rcases engineTurn_cases ht with ⟨-, rfl⟩ | ⟨hb, i, hd, hexec⟩
  · exact h
  obtain ⟨i', hd', hchk⟩ := (check_eq_none_iff s s.cur).1 (h.runningChecked hb)
  obtain rfl : i = i' := by rw [hd] at hd'; injection hd'
  rcases exec_cases hexec with ⟨m, hm, rfl⟩ | ⟨_, _, _, b, -, rfl⟩
  · exact (h.setMem hm fun _ => isData_of_writeSet hchk).finish
  · exact h.finish_setVok b

theorem step (h : s.Inv) (ht : Machine.step s = .next t) : t.Inv := by
  obtain ⟨rest, ⟨-, he⟩ | ⟨x, -, hx⟩ | ⟨-, rfl⟩⟩ := step_cases ht
  · exact (h.setInputs rest).engineTurn he
  · exact (h.setInputs rest).hostTransaction hx
  · exact hardReset _

end State.Inv

/-- Settles O55: the command that completes passed Check, so its stores lie in data windows, and every other update keeps
each part of the invariant. -/
theorem stepKeepsInvariant : Obligations.StepKeepsInvariant := by
  unfold Obligations.StepKeepsInvariant
  exact fun _ _ => State.Inv.step

/-- Settles O54: at reset nothing runs, nothing is defined and no error is shown. -/
theorem invariantHoldsAtReset : Obligations.InvariantHoldsAtReset := by
  unfold Obligations.InvariantHoldsAtReset
  exact fun c => .of_idle rfl .nil (by simp [State.resetWith]) (by simp [State.resetWith]) (by simp [State.resetWith])

end Sys2Proof.Machine
end

section
/-! The registers, the reserved offsets and the data windows as the host sees them. -/

namespace Sys2Proof.Machine

/-! ## Control registers: what a read answers and a write does -/

theorem hostRead_id (s : State) : hostRead 0 s = .next (s.answer idWord) := rfl
theorem hostRead_caps (s : State) : hostRead 1 s = .next (s.answer s.cfg.capsWord) := rfl
theorem hostRead_ctrl (s : State) : hostRead 2 s = .next (s.answer s.ctrlWord) := rfl
theorem hostRead_status (s : State) : hostRead 3 s = .next (s.answer s.statusWord) := rfl
theorem hostRead_cmd (s : State) : hostRead 4 s = .next (s.answer 0) := rfl
theorem hostRead_iter (s : State) : hostRead 5 s = .next (s.answer s.iter) := rfl
theorem hostRead_breadth (s : State) : hostRead 6 s = .next (s.answer s.breadth) := rfl

theorem hostWrite_id (d : Word) (s : State) : hostWrite 0 d s = s := rfl
theorem hostWrite_caps (d : Word) (s : State) : hostWrite 1 d s = s := rfl
theorem hostWrite_ctrl (d : Word) (s : State) : hostWrite 2 d s = writeCtrl d s := rfl
theorem hostWrite_status (d : Word) (s : State) : hostWrite 3 d s = writeStatus d s := rfl
theorem hostWrite_cmd (d : Word) (s : State) : hostWrite 4 d s = launch d s := rfl
theorem hostWrite_iter (d : Word) (s : State) : hostWrite 5 d s = s.whenIdle (s.setIter d) := rfl
theorem hostWrite_breadth (d : Word) (s : State) : hostWrite 6 d s = s.whenIdle (s.setBreadth d) := rfl

theorem whenIdle_of_idle {s t : State} (h : s.busy = false) : s.whenIdle t = t := by simp [State.whenIdle, h]

theorem whenIdle_of_busy {s t : State} (h : s.busy = true) : s.whenIdle t = s.reject .busy := by
  simp [State.whenIdle, h]

theorem launch_of_busy {s : State} (h : s.busy = true) (d : Word) : launch d s = s.reject .busy := by simp [launch, h]

/-- Settles O6: the three ways a launch ends are the three branches of R140. -/
theorem launchPseudocode : Obligations.LaunchPseudocode := by
  unfold Obligations.LaunchPseudocode
  refine fun s => ⟨hostRead_cmd s, fun d => ?_⟩
  rw [hostWrite_cmd]
  rcases launch_cases d s with ⟨hb, he⟩ | ⟨hb, e, hc, he⟩ | ⟨hb, hc, he⟩
  · rw [he, if_pos hb]; rfl
  · rw [he, if_neg (by simp [hb]), hc]; rfl
  · rw [he, if_neg (by simp [hb]), hc]; rfl

/-- Settles O38: offset 0 is ID, a constant that no write reaches. -/
theorem idRegister : Obligations.IdRegister := by
  unfold Obligations.IdRegister
  exact fun s => ⟨hostRead_id s, fun d => hostWrite_id d s⟩

/-! ### CAPS (R33) -/

theorem quantum_eq_twelve (c : Config) : c.quantum = 12 ↔ c.q12 = true := by
  unfold Config.quantum
  cases c.q12 <;> simp

theorem capsWord_width (c : Config) : (c.capsWord.extractLsb' 0 5).toNat = c.width := by
  have hw : c.capsWord.extractLsb' 0 5 = BitVec.ofNat 5 c.width := by
    ext j hj
    simp only [Config.capsWord, BitVec.getElem_extractLsb', BitVec.getLsbD_append]
    simp [hj]
  rw [hw, BitVec.toNat_ofNat]
  rcases Config.width_cases c with h | h | h | h <;> rw [h]

theorem capsWord_variant (c : Config) : c.capsWord.extractLsb' 12 4 = c.variant.code := by
  ext j hj
  simp only [Config.capsWord, BitVec.getElem_extractLsb', BitVec.getLsbD_append]
  interval_cases j <;> simp

theorem capsWord_reserved (c : Config) :
    c.capsWord.extractLsb' 5 3 = 0 ∧ c.capsWord.extractLsb' 18 14 = 0 := by
  constructor
  all_goals
    ext j hj
    simp only [Config.capsWord, BitVec.getElem_extractLsb', BitVec.getLsbD_append]
    interval_cases j <;> simp

theorem capsWord_bits (c : Config) :
    c.capsWord.getLsbD 8 = c.accepts 1 ∧ c.capsWord.getLsbD 9 = c.accepts 4 ∧
      c.capsWord.getLsbD 10 = c.accepts 8 ∧ c.capsWord.getLsbD 11 = c.accepts 12 ∧
      c.capsWord.getLsbD 16 = c.hasKeygen ∧ c.capsWord.getLsbD 17 = c.q12 := by
  simp only [Config.capsWord, BitVec.getLsbD_append]
  simp

/-- Settles O39: each field of CAPS is read off the concatenation that builds the word. -/
theorem capsRegister : Obligations.CapsRegister := by
  unfold Obligations.CapsRegister
  refine ⟨by decide, fun s => ⟨_, rfl, hostRead_caps s, fun d => hostWrite_caps d s, ?_⟩⟩
  obtain ⟨h1, h4, h8, h12, hkeygen, hq⟩ := capsWord_bits s.cfg
  obtain ⟨hlow, hhigh⟩ := capsWord_reserved s.cfg
  have hone : s.cfg.accepts 1 = true := by simp [Config.accepts]
  refine ⟨capsWord_width s.cfg, hlow, h1.trans hone, h4, h8, h12, ?_, hkeygen, ?_, hhigh⟩
  · rw [capsWord_variant]
    cases s.cfg.variant <;> rfl
  · rw [hq, quantum_eq_twelve]

/-! ### CTRL, STATUS and the interrupt (R34, R35, R52) -/

theorem ctrlWord_eq (s : State) : s.ctrlWord = if s.ie then 1 else 0 := by
  unfold State.ctrlWord
  cases s.ie <;> rfl

/-- Settles O40: bit 1 of the word selects between the soft reset and IE. -/
theorem ctrlRegister : Obligations.CtrlRegister := by
  unfold Obligations.CtrlRegister
  refine ⟨fun _ => rfl, fun s => ⟨?_, fun d hd => ?_, fun d hd => ?_⟩⟩
  · rw [hostRead_ctrl, ctrlWord_eq]; rfl
  · rw [hostWrite_ctrl, writeCtrl, if_neg (Bool.eq_false_iff.1 hd)]; rfl
  · rw [hostWrite_ctrl, writeCtrl, if_pos hd]

theorem statusWord_flags (s : State) :
    s.statusWord.getLsbD 0 = s.busy ∧ s.statusWord.getLsbD 1 = s.done ∧ s.statusWord.getLsbD 2 = s.err ∧
      s.statusWord.getLsbD 3 = s.vok := by
  simp only [State.statusWord, BitVec.getLsbD_append]
  simp

theorem statusWord_errcode (s : State) : s.statusWord.extractLsb' 8 4 = s.errcode := by
  ext j hj
  simp only [State.statusWord, BitVec.getElem_extractLsb', BitVec.getLsbD_append]
  interval_cases j <;> simp

theorem statusWord_reserved (s : State) :
    s.statusWord.extractLsb' 4 4 = 0 ∧ s.statusWord.extractLsb' 12 20 = 0 := by
  constructor
  all_goals
    ext j hj
    simp only [State.statusWord, BitVec.getElem_extractLsb', BitVec.getLsbD_append]
    interval_cases j <;> simp

/-- Settles O41: a read is the concatenation of R35, a write clears by bits 1 and 2. -/
theorem statusRegister : Obligations.StatusRegister := by
  unfold Obligations.StatusRegister
  refine fun s => ⟨⟨_, hostRead_status s, ?_⟩, fun d => (hostWrite_status d s).trans (writeStatus_eq d s)⟩
  obtain ⟨hbusy, hdone, herr, hvok⟩ := statusWord_flags s
  obtain ⟨hlow, hhigh⟩ := statusWord_reserved s
  exact ⟨hbusy, hdone, herr, hvok, hlow, statusWord_errcode s, hhigh⟩

/-- Settles O48: `State.irq` read as a proposition. -/
theorem interruptIsALevel : Obligations.InterruptIsALevel := by
  unfold Obligations.InterruptIsALevel
  intro s
  simp only [State.irq, Bool.and_eq_true, Bool.or_eq_true]

/-- Settles O50: a hard reset empties memory and sets the control state, as the state after reset has them. -/
theorem hardResetValues : Obligations.HardResetValues := by
  unfold Obligations.HardResetValues
  refine ⟨fun c => by simp [State.resetWith, State.irq], fun s rest hin => ⟨(s.setInputs rest).hardReset, ?_, ?_⟩⟩
  · simp only [step, takeTurn, hin]
  · simp [State.hardReset, State.irq]

/-! ## Reserved offsets and data windows -/

theorem hostRead_data {s : State} {wa : BitVec 15} (h : isData s.cfg (byteOffset wa) = true) :
    hostRead wa s = readData (byteOffset wa) s := by
  simp only [hostRead, target_of_isData h]

theorem hostWrite_data {s : State} {wa : BitVec 15} (h : isData s.cfg (byteOffset wa) = true) (d : Word) :
    hostWrite wa d s = s.whenIdle (s.setMem (s.mem.writeWord (byteOffset wa) d)) := by
  simp only [hostWrite, target_of_isData h]

theorem hostRead_reserved {s : State} {wa : BitVec 15} (h : target s.cfg (byteOffset wa) = .reserved) :
    hostRead wa s = .next (s.answer 0) := by
  simp only [hostRead, h]

theorem hostWrite_reserved {s : State} {wa : BitVec 15} (h : target s.cfg (byteOffset wa) = .reserved) (d : Word) :
    hostWrite wa d s = s := by
  simp only [hostWrite, h]

/-- Settles O42: the listed gaps are the offsets above the registers in no data window. -/
theorem reservedOffsets : Obligations.ReservedOffsets := by
  unfold Obligations.ReservedOffsets
  intro s wa hgap
  have hw := Config.width_cases s.cfg
  have hdata : isData s.cfg (byteOffset wa) = false := by
    rw [← Bool.not_eq_true, isData_iff]
    unfold byteOffset
    omega
  have hres := target_of_not_isData (by unfold byteOffset; omega) hdata
  exact ⟨hostRead_reserved hres, hostWrite_reserved hres⟩

/-- The word at `off` meets the running command's write set in one of its four bytes (R55, R146). -/
theorem inRunningWriteSet_iff {s : State} {i : Instr} (hd : decode s.cur = .ok i) (off : Nat) :
    inRunningWriteSet s off = true ↔ ∃ m < 4, writeSet s.cfg i (off + m) = true := by
  simp [inRunningWriteSet, hd]

theorem readData_draws {off : Nat} {s : State} (hb : s.busy = true) (h : inRunningWriteSet s off = true) :
    readData off s = .next s.drawUnspecified := by
  simp [readData, hb, h]

/-- A word that no running command may write reads as its bytes (R55), which must be defined (R53). -/
theorem readData_settled {off : Nat} {s : State}
    (h : s.busy = false ∨ ∃ i, decode s.cur = .ok i ∧ ∀ k < 4, writeSet s.cfg i (off + k) = false) :
    (∀ w, s.mem.readWord off = some w → readData off s = .next (s.answer w)) ∧
      (s.mem.readWord off = none → readData off s = .fault .undefinedRead) := by
  have hfree : ¬(s.busy = true ∧ inRunningWriteSet s off = true) := by
    rintro ⟨hb, hin⟩
    rcases h with hidle | ⟨i, hd, hout⟩
    · simp [hidle] at hb
    · obtain ⟨m, hm, hwrites⟩ := (inRunningWriteSet_iff hd off).1 hin
      simp [hout m hm] at hwrites
  rcases readData_cases off s with ⟨hb, hin, -⟩ | ⟨w, hw, he⟩ | ⟨hw, he⟩
  · exact absurd ⟨hb, hin⟩ hfree
  · simp [hw, he]
  · simp [hw, he]

/-- Settles O45: the word has no value, and the read is no draw. -/
theorem undefinedReadFaults : Obligations.UndefinedReadFaults := by
  unfold Obligations.UndefinedReadFaults
  intro s wa m hsettled hdata hm hundef
  rw [hostRead_data hdata]
  exact (readData_settled hsettled).2 ((Mem.read_eq_none_iff _ _ 4).2 ⟨m, hm, hundef⟩)

/-- A write to an operand or to CMD is refused while a command runs (R55). -/
theorem hostWrite_of_busy {s : State} {wa : BitVec 15} (hb : s.busy = true)
    (h : isData s.cfg (byteOffset wa) = true ∨ wa = 4 ∨ wa = 5 ∨ wa = 6) (d : Word) :
    hostWrite wa d s = s.reject .busy := by
  rcases h with hdata | rfl | rfl | rfl
  · rw [hostWrite_data hdata, whenIdle_of_busy hb]
  · rw [hostWrite_cmd, launch_of_busy hb]
  · rw [hostWrite_iter, whenIdle_of_busy hb]
  · rw [hostWrite_breadth, whenIdle_of_busy hb]

/-- A word written while no command runs is stored, and the next read returns it (R55). -/
theorem hostWrite_then_read {s : State} {wa : BitVec 15} (hidle : s.busy = false)
    (hdata : isData s.cfg (byteOffset wa) = true) (d : Word) :
    hostWrite wa d s = s.setMem (s.mem.writeWord (byteOffset wa) d) ∧
      hostRead wa (hostWrite wa d s) = .next ((s.setMem (s.mem.writeWord (byteOffset wa) d)).answer d) := by
  have hstore : hostWrite wa d s = s.setMem (s.mem.writeWord (byteOffset wa) d) := by
    rw [hostWrite_data hdata, whenIdle_of_idle hidle]
  refine ⟨hstore, ?_⟩
  rw [hstore, hostRead_data (by simpa using hdata)]
  exact (readData_settled (.inl (by simpa using hidle))).1 d (Mem.read_write_same _ _ 4 d)

/-- Settles O43: the clauses are the cases of a data write, of a data read and of the two registers. -/
theorem hostAccessToOperands : Obligations.HostAccessToOperands := by
  unfold Obligations.HostAccessToOperands
  refine fun s wa d => ⟨fun hidle hdata => ⟨?_, fun w hw => ?_⟩, fun hidle => ?_, fun hb h => ?_,
    fun hb i hd hdata => ⟨fun hin => ?_, fun hout w hw => ?_⟩, hostRead_iter s, hostRead_breadth s⟩
  · obtain ⟨hstore, hread⟩ := hostWrite_then_read hidle hdata d
    exact ⟨_, hstore, hread⟩
  · rw [hostRead_data hdata]
    exact (readData_settled (.inl hidle)).1 w hw
  · rw [hostWrite_iter, hostWrite_breadth, whenIdle_of_idle hidle, whenIdle_of_idle hidle]
    exact ⟨rfl, rfl⟩
  · exact hostWrite_of_busy hb h d
  · rw [hostRead_data hdata]
    exact readData_draws hb ((inRunningWriteSet_iff hd _).2 hin)
  · rw [hostRead_data hdata]
    exact (readData_settled (.inr ⟨i, hd, hout⟩)).1 w hw

end Sys2Proof.Machine
end

section
/-! What no step changes: the configuration, VOK but for a POT_VERIFY, and in a system every member but one. -/

namespace Sys2Proof.Machine

/-! ## VOK (R35, R344) -/

theorem HostWriteResult.vok_of_vok {s t : State} {wa : BitVec 15} {d : Word} (hr : HostWriteResult s wa d t)
    (h : t.vok = true) : s.vok = true := by
  cases hr with
  | softReset | accepted => cases h
  | status => rwa [writeStatus_eq] at h
  | ignored | enable | rejected | iter | breadth | store => exact h

/-- No host transaction raises VOK. -/
theorem hostTransaction_vok_of_vok {x : HostTxn} {s t : State} (hx : hostTransaction x s = .next t)
    (h : t.vok = true) : s.vok = true := by
  rcases hostTransaction_cases hx with ⟨-, w, rfl⟩ | ⟨-, -, rfl⟩ | ⟨-, rfl⟩
  · exact h
  · exact h
  · exact (hostWrite_result _ _ s).vok_of_vok h

/-- A completion that raises VOK is a POT_VERIFY's. -/
theorem exec_raises_vok {i : Instr} {s t : State} (h : exec i s = .next t) (hs : s.vok = false) (ht : t.vok = true) :
    ∃ v first last, i = .potVerify v first last := by
  rcases exec_cases h with ⟨m, -, rfl⟩ | ⟨v, first, last, -, rfl, -⟩
  · simp [hs] at ht
  · exact ⟨v, first, last, rfl⟩

/-- Settles O60: transactions and resets do not raise VOK, and of the completions only POT_VERIFY's does. -/
theorem vokRisesOnlyByVerify : Obligations.VokRisesOnlyByVerify := by
  unfold Obligations.VokRisesOnlyByVerify
  intro s t hstep hs ht
  obtain ⟨rest, ⟨hin, he⟩ | ⟨x, -, hx⟩ | ⟨-, rfl⟩⟩ := step_cases hstep
  · rcases engineTurn_cases he with ⟨-, rfl⟩ | ⟨hb, i, hd, hexec⟩
    · simp [hs] at ht
    · obtain ⟨v, first, last, rfl⟩ := exec_raises_vok hexec hs ht
      exact ⟨hb, v, first, last, rest, hd, hin, hexec⟩
  · have := hostTransaction_vok_of_vok hx ht
    simp [hs] at this
  · cases ht

/-! ## The configuration (R30, R332) -/

theorem softReset_cfg (s : State) : s.softReset.cfg = s.cfg := by
  obtain ⟨m, hm, -⟩ := abandon_frame s
  simp [State.softReset, hm]

theorem HostWriteResult.cfg_eq {s t : State} {wa : BitVec 15} {d : Word} (hr : HostWriteResult s wa d t) :
    t.cfg = s.cfg := by
  cases hr with
  | softReset => exact softReset_cfg s
  | status => rw [writeStatus_eq]
  | ignored | enable | rejected | accepted | iter | breadth | store => rfl

theorem exec_cfg {i : Instr} {s t : State} (h : exec i s = .next t) : t.cfg = s.cfg := by
  rcases exec_cases h with ⟨m, -, rfl⟩ | ⟨_, _, _, b, -, rfl⟩ <;> rfl

theorem engineTurn_cfg {s t : State} (h : engineTurn s = .next t) : t.cfg = s.cfg := by
  rcases engineTurn_cases h with ⟨-, rfl⟩ | ⟨-, i, -, hexec⟩
  · rfl
  · exact exec_cfg hexec

theorem hostTransaction_cfg {x : HostTxn} {s t : State} (h : hostTransaction x s = .next t) : t.cfg = s.cfg := by
  rcases hostTransaction_cases h with ⟨-, w, rfl⟩ | ⟨-, -, rfl⟩ | ⟨-, rfl⟩
  · rfl
  · rfl
  · exact (hostWrite_result _ _ _).cfg_eq

theorem step_cfg {s t : State} (h : step s = .next t) : t.cfg = s.cfg := by
  obtain ⟨rest, ⟨-, he⟩ | ⟨x, -, hx⟩ | ⟨-, rfl⟩⟩ := step_cases h
  · simpa using engineTurn_cfg he
  · simpa using hostTransaction_cfg hx
  · rfl

/-! ## Systems (R96, R305) -/

/-- An input to one member leaves every configuration and the system's own inputs as they were. -/
theorem stepInstance_keeps {sys sys' : System} {k : Nat} {i : Input} (h : stepInstance sys k i = .next sys') :
    sys'.inputs = sys.inputs ∧ sys'.members.map State.cfg = sys.members.map State.cfg := by
  rcases stepInstance_cases sys k i with ⟨-, he⟩ | ⟨s, hs, ⟨t, ht, he⟩ | ⟨r, -, he⟩ | ⟨r, -, he⟩⟩ <;> rw [he] at h
  · injection h with h
    subst h
    exact ⟨rfl, rfl⟩
  · injection h with h
    subst h
    obtain ⟨hk, rfl⟩ := List.getElem?_eq_some_iff.1 hs
    have hcfg : t.cfg = (sys.members.map State.cfg)[k]'(by simpa using hk) := by
      rw [List.getElem_map]
      simpa using step_cfg ht
    exact ⟨rfl, by rw [List.map_set, hcfg, List.set_getElem_self]⟩
  · cases h
  · cases h

theorem stepSystem_cfgs {sys sys' : System} (h : stepSystem sys = .next sys') :
    sys'.members.map State.cfg = sys.members.map State.cfg := by
  rcases stepSystem_cases sys with ⟨-, he⟩ | he | ⟨k, i, is, he⟩ <;> rw [he] at h
  · injection h with h; rw [h]
  · cases h
  · exact (stepInstance_keeps h).2

/-- Whether windows are disjoint is a matter of the configurations alone. -/
theorem disjoint_iff (sys : System) :
    sys.disjoint ↔ (sys.members.map State.cfg).Pairwise fun x y => x.baseIndex ≠ y.baseIndex := by
  rw [List.pairwise_map]

theorem owns_iff (s : State) (addr : Nat) :
    s.owns addr = true ↔ s.cfg.baseIndex * 0x20000 ≤ addr ∧ addr < s.cfg.baseIndex * 0x20000 + 0x20000 :=
  within_eq_true

/-- Of disjoint windows, the one that holds the address is the owner's (R305). -/
theorem owner_of_owns {sys : System} (hdisj : sys.disjoint) {k : Nat} {s : State} (hk : sys.members[k]? = some s)
    {addr : Nat} (howns : s.owns addr = true) : sys.owner addr = some k := by
  obtain ⟨hlt, rfl⟩ := List.getElem?_eq_some_iff.1 hk
  refine List.findIdx?_eq_some_iff_getElem.2 ⟨hlt, howns, fun j hj hj' => ?_⟩
  have hne := List.pairwise_iff_getElem.1 hdisj j k (by omega) hlt hj
  rw [owns_iff] at howns hj'
  omega

/-- The next input of a system is one that reaches member `k`: the host's access inside its window, a turn of its engine or
its hard reset. -/
def System.NextReaches (sys : System) (rest : List SystemInput) (k : Nat) : Prop :=
  (∃ addr width data s, sys.disjoint ∧ sys.inputs = .bus addr width data :: rest ∧ sys.members[k]? = some s ∧
      s.cfg.baseIndex * 0x20000 ≤ addr ∧ addr < s.cfg.baseIndex * 0x20000 + 0x20000) ∨
    sys.inputs = .engine k :: rest ∨ sys.inputs = .hardReset k :: rest

theorem stepSystem_of_nextReaches {sys : System} {rest : List SystemInput} {k : Nat} (h : sys.NextReaches rest k) :
    ∃ i, stepSystem sys = stepInstance { sys with inputs := rest } k i := by
  rcases h with ⟨addr, width, data, s, hdisj, hin, hk, hlo, hhi⟩ | hin | hin
  · have howner := owner_of_owns hdisj hk ((owns_iff s addr).2 ⟨hlo, hhi⟩)
    exact ⟨.access addr width data, by simp only [stepSystem, hin, howner]⟩
  · exact ⟨.engine, by simp only [stepSystem, hin]⟩
  · exact ⟨.hardReset, by simp only [stepSystem, hin]⟩

/-- Settles O57: a step of a system is at most one step of one member, which keeps its configuration. -/
theorem configurationIsConstantAndInstancesIndependent :
    Obligations.ConfigurationIsConstantAndInstancesIndependent := by
  unfold Obligations.ConfigurationIsConstantAndInstancesIndependent
  refine ⟨fun _ _ => step_cfg, fun sys sys' hstep => ⟨stepSystem_cfgs hstep, fun hdisj => ?_, fun rest k hreach => ?_⟩⟩
  · rwa [disjoint_iff, stepSystem_cfgs hstep, ← disjoint_iff]
  · obtain ⟨i, hi⟩ := stepSystem_of_nextReaches hreach
    rw [hi] at hstep
    exact ⟨(stepInstance_keeps hstep).1, fun j hj => stepInstance_frame hstep hj⟩

end Sys2Proof.Machine
end

section
/-! Transactions as the host issues them (20_memory.md): bytes of a word, reads, a bridge's accesses, and what a running
command is spared. -/

namespace Sys2Proof.Machine

/-! ## Bytes of a data word (R81) -/

theorem extractLsb'_word_byte (b : Nat → Byte) {m : Nat} (hm : m < 4) :
    (b 3 ++ b 2 ++ b 1 ++ b 0 : Word).extractLsb' (8 * m) 8 = b m := by
  apply BitVec.eq_of_getLsbD_eq
  intro j hj
  simp only [BitVec.getLsbD_extractLsb', BitVec.getLsbD_append, hj, decide_true, Bool.true_and]
  interval_cases m <;> interval_cases j <;> rfl

theorem readWord_of_bytes {m : Mem} {a : Nat} {b : Nat → Byte} (h : ∀ i < 4, m.get (a + i) = some (b i)) :
    m.readWord a = some (b 3 ++ b 2 ++ b 1 ++ b 0) :=
  (Mem.read_eq_some_iff m a 4 _).2 fun i hi => (h i hi).trans (congrArg some (extractLsb'_word_byte b hi).symm)

/-- Settles O44: a data word is stored and read byte by byte, the low byte first. -/
theorem littleEndianWords : Obligations.LittleEndianWords := by
  unfold Obligations.LittleEndianWords
  refine fun s wa hidle hdata => ⟨fun d => ?_, fun b hb => ?_⟩
  · have hstore := (hostWrite_then_read hidle hdata d).1
    exact ⟨_, hstore, rfl, fun m hm => Mem.get_write_inside s.mem _ 4 d m hm,
      fun a ha => Mem.get_write_outside s.mem _ 4 d a ha⟩
  · rw [hostRead_data hdata]
    exact (readData_settled (.inl hidle)).1 _ (readWord_of_bytes hb)

/-! ## Reads (R86) -/

@[simp] theorem State.answer_answer (s : State) (v w : Word) : (s.answer v).answer w = s.answer w := rfl

/-- What the host received before has no part in a read while no command runs. -/
theorem hostRead_answer {s : State} (hidle : s.busy = false) (wa : BitVec 15) (v : Word) :
    hostRead wa (s.answer v) = hostRead wa s := by
  simp only [hostRead, State.answer_cfg]
  cases target s.cfg (byteOffset wa)
  case data => simp [readData, hidle]
  all_goals rfl

/-- Settles O46: an idle read leaves its answer alone behind, which a second read replaces by the same. -/
theorem readsAreIdempotent : Obligations.ReadsAreIdempotent := by
  unfold Obligations.ReadsAreIdempotent
  intro s t wa hidle hread
  rcases hostRead_frame hread with ⟨w, rfl⟩ | ⟨hb, -⟩
  · rwa [hostRead_answer hidle]
  · simp [hidle] at hb

/-! ## Accesses a bridge offers (R84, R87) -/

theorem windowBase_mod_four (c : Config) : c.windowBase % 4 = 0 := by
  unfold Config.windowBase
  omega

/-- The transaction an access is: all four bytes of the word at its offset in the window. -/
theorem expressible_eq_some_iff (c : Config) (addr width : Nat) (data : Option Word) (x : HostTxn) :
    expressible c addr width data = some x ↔
      width = 4 ∧ addr = c.windowBase + 4 * x.wa.toNat ∧ x.write = data.isSome ∧ x.d = data.getD 0 := by
  have hbase := windowBase_mod_four c
  unfold expressible
  constructor
  · intro h
    split at h
    · next hin =>
      obtain ⟨hwidth, haligned, hlo, hhi⟩ := hin
      unfold windowBytes at hhi
      injection h with h
      subst h
      refine ⟨hwidth, ?_, rfl, rfl⟩
      simp only [BitVec.toNat_ofNat]
      omega
    · cases h
  · rintro ⟨hwidth, haddr, hwrite, hd⟩
    have hwa : BitVec.ofNat 15 ((addr - c.windowBase) / 4) = x.wa := by
      rw [show (addr - c.windowBase) / 4 = x.wa.toNat by omega, BitVec.ofNat_toNat, BitVec.setWidth_eq]
    have hlt := x.wa.isLt
    have hhi : addr < c.windowBase + windowBytes := by unfold windowBytes; omega
    rw [if_pos ⟨hwidth, by omega, by omega, hhi⟩, hwa, ← hwrite, ← hd]

theorem expressible_eq_none {c : Config} {addr width : Nat} (data : Option Word)
    (h : width ≠ 4 ∨ addr % 4 ≠ 0 ∨ addr < c.windowBase ∨ c.windowBase + windowBytes ≤ addr) :
    expressible c addr width data = none :=
  if_neg (by omega)

theorem step_access {s : State} {addr width : Nat} {data : Option Word} {rest : List Input}
    (hin : s.inputs = .access addr width data :: rest) : step s = bridgeAccess addr width data (s.setInputs rest) := by
  simp only [step, takeTurn, hin]

/-- Settles O47: the accesses `expressible` takes are those the statement lists. -/
theorem onlyAlignedWordsAreExpressible : Obligations.OnlyAlignedWordsAreExpressible := by
  unfold Obligations.OnlyAlignedWordsAreExpressible
  refine fun s addr width data rest hin => ⟨fun hbad => ?_, fun wa hwidth haddr => ?_⟩
  · rw [step_access hin, bridgeAccess, State.setInputs_cfg, expressible_eq_none data hbad]
  · have hx : expressible s.cfg addr width data = some ⟨data.isSome, wa, data.getD 0⟩ :=
      (expressible_eq_some_iff _ _ _ _ _).2 ⟨hwidth, haddr, rfl, rfl⟩
    simp only [step_access hin, bridgeAccess, State.setInputs_cfg, hx]
    constructor
    · rintro rfl
      rfl
    · rintro d rfl
      rfl

theorem step_host {s : State} {x : HostTxn} {rest : List Input} (hin : s.inputs = .host x :: rest) :
    step s = hostTransaction x (s.setInputs rest) := by
  simp only [step, takeTurn, hin]

/-! ## What a running command is spared (R55, R94) -/

/-- `t` agrees with `s` on all that a completion reads, and on whether and which command runs. -/
structure State.SameCommand (s t : State) : Prop where
  cfg : t.cfg = s.cfg
  busy : t.busy = s.busy
  cur : t.cur = s.cur
  iter : t.iter = s.iter
  breadth : t.breadth = s.breadth
  mem : t.mem = s.mem
  vok : t.vok = s.vok

/-- A write to CTRL with d[1] = 1 (R34). -/
def HostTxn.IsSoftReset (x : HostTxn) : Prop := x.write = true ∧ x.wa = 2 ∧ x.d.getLsbD 1 = true

theorem HostWriteResult.sameCommand {s t : State} {wa : BitVec 15} {d : Word} (hr : HostWriteResult s wa d t)
    (hb : s.busy = true) (hsoft : ¬(wa = 2 ∧ d.getLsbD 1 = true)) : s.SameCommand t := by
  cases hr with
  | ignored | enable | rejected => exact ⟨rfl, rfl, rfl, rfl, rfl, rfl, rfl⟩
  | status => rw [writeStatus_eq]; exact ⟨rfl, rfl, rfl, rfl, rfl, rfl, rfl⟩
  | softReset hwa hd => exact absurd ⟨hwa, hd⟩ hsoft
  | accepted hidle | iter hidle | breadth hidle | store hidle => simp [hb] at hidle

theorem hostTransaction_sameCommand {x : HostTxn} {s t : State} (hx : hostTransaction x s = .next t)
    (hb : s.busy = true) (hsoft : ¬x.IsSoftReset) : s.SameCommand t := by
  rcases hostTransaction_cases hx with ⟨-, w, rfl⟩ | ⟨-, -, rfl⟩ | ⟨hwrite, rfl⟩
  · exact ⟨rfl, rfl, rfl, rfl, rfl, rfl, rfl⟩
  · exact ⟨rfl, rfl, rfl, rfl, rfl, rfl, rfl⟩
  · exact (hostWrite_result _ _ s).sameCommand hb fun h => hsoft ⟨hwrite, h⟩

/-- Where the first outcome is a next state, so is the second, with the same data windows and VOK. -/
def GivesSame (o o' : Host.Outcome State Fault Refusal) : Prop :=
  ∀ u, o = .next u → ∃ u', o' = .next u' ∧ u'.mem = u.mem ∧ u'.vok = u.vok

theorem GivesSame.next {u u' : State} (hmem : u'.mem = u.mem) (hvok : u'.vok = u.vok) :
    GivesSame (.next u) (.next u') := by
  rintro _ ⟨⟩
  exact ⟨u', rfl, hmem, hvok⟩

theorem GivesSame.needs {α : Type} {o : Option α} {k k' : α → Host.Outcome State Fault Refusal}
    (h : ∀ v, GivesSame (k v) (k' v)) : GivesSame (Machine.needs o k) (Machine.needs o k') := by
  intro u hu
  obtain ⟨v, rfl, hv⟩ := needs_eq_next hu
  exact h v u hv

/-- A completion reads no more than `State.SameCommand` compares (R147). -/
theorem exec_givesSame {s t : State} (h : s.SameCommand t) (i : Instr) : GivesSame (exec i s) (exec i t) := by
  obtain ⟨hcfg, hbusy, hcur, hiter, hbreadth, hmem, hvok⟩ := h
  cases s
  cases t
  subst hcfg hbusy hcur hiter hbreadth hmem hvok
  cases i with
  | nop => exact .next rfl rfl
  | keygen => exact .needs fun _ => .next rfl rfl
  | permFwd | permInv | potProve => exact .needs fun _ => .needs fun _ => .next rfl rfl
  | porEnc | porDec | potVerify => exact .needs fun _ => .needs fun _ => .needs fun _ => .next rfl rfl

/-- Settles O58: the transaction keeps all that the completion reads. -/
theorem runningCommandKeepsItsInputs : Obligations.RunningCommandKeepsItsInputs := by
  unfold Obligations.RunningCommandKeepsItsInputs
  intro s t x rest hin hb hsoft hstep
  rw [step_host hin] at hstep
  have hsame : s.SameCommand t := { hostTransaction_sameCommand hstep hb hsoft with }
  exact ⟨⟨hsame.busy.trans hb, hsame.cur, hsame.iter, hsame.breadth, hsame.mem⟩, exec_givesSame hsame⟩

/-! ## How a running command ends (R89, R149) -/

/-- An access that is a soft reset is a 4-byte store to CTRL (R34, R87). -/
theorem access_of_isSoftReset {c : Config} {addr width : Nat} {data : Option Word} {x : HostTxn}
    (h : expressible c addr width data = some x) (hsoft : x.IsSoftReset) :
    ∃ d, width = 4 ∧ data = some d ∧ addr = c.baseIndex * 0x20000 + 8 ∧ d.getLsbD 1 = true := by
  obtain ⟨hwidth, haddr, hwrite, hd⟩ := (expressible_eq_some_iff _ _ _ _ _).1 h
  obtain ⟨hw, hwa, hbit⟩ := hsoft
  obtain ⟨d, rfl⟩ := Option.isSome_iff_exists.1 (hwrite.symm.trans hw)
  rw [hd] at hbit
  rw [hwa] at haddr
  exact ⟨d, hwidth, rfl, haddr, hbit⟩

/-- Settles O59: a transaction that takes BUSY down is a soft reset, and the other two kinds of step are the engine's turn and
a hard reset. -/
theorem runningCommandEndsByCompletionOrReset : Obligations.RunningCommandEndsByCompletionOrReset := by
  unfold Obligations.RunningCommandEndsByCompletionOrReset
  intro s t hstep hb ht
  obtain ⟨rest, ⟨hturn, he⟩ | ⟨x, hin, hx⟩ | ⟨hin, -⟩⟩ := step_cases hstep
  · rcases engineTurn_cases he with ⟨hidle, -⟩ | ⟨-, i, hd, hexec⟩
    · simp [hb] at hidle
    · exact .inl ⟨i, rest, hturn, hd, hexec⟩
  · have hsoft : x.IsSoftReset := by
      by_contra hsoft
      have hbusy := (hostTransaction_sameCommand hx hb hsoft).busy
      simp [ht, hb] at hbusy
    rcases hin with hin | ⟨a, w, data, hin, hexpr⟩
    · exact .inr (.inl ⟨x, rest, hin, hsoft⟩)
    · obtain ⟨d, rfl, rfl, haddr, hbit⟩ := access_of_isSoftReset hexpr hsoft
      exact .inr (.inr (.inl ⟨a, d, rest, hin, haddr, hbit⟩))
  · exact .inr (.inr (.inr ⟨rest, hin⟩))

end Sys2Proof.Machine
end

section
/-! The command word: the bits an opcode fixes and the fields it leaves free, in the decoder and in the encoder
(30_encoding.md). -/

namespace Sys2Proof

open Laws.OpcodeRowMatches (rowOf)

/-! ## A word under a mask -/

/-- A word is its bits under a mask and its bits outside it. -/
theorem and_or_and_not (d m : Word) : d &&& m ||| d &&& ~~~m = d := by
  rw [← BitVec.and_or_distrib_left, BitVec.or_not_self, BitVec.and_allOnes]

theorem and_ne_zero_of_submask {d m m' : Word} (hsub : m' &&& m = m) (h : d &&& m ≠ 0) : d &&& m' ≠ 0 := by
  intro h0
  apply h
  rw [← hsub, ← BitVec.and_assoc, h0]
  exact BitVec.zero_and

/-! ## Fields of a word (R111) -/

/-- A field value at its place in the word, the field's low bit at bit `k`. -/
def place {w : Nat} (k : Nat) (f : BitVec w) : Word := f.setWidth 32 <<< k

theorem place_extractLsb' (d : Word) (k w : Nat) :
    place k (d.extractLsb' k w) = d &&& place k (BitVec.allOnes w) := by
  ext j hj
  by_cases hk : j < k
  · simp [place, hk]
  · have hjk : k + (j - k) = j := by omega
    simp [place, hk, hjk, hj, BitVec.getLsbD_eq_getElem, Bool.and_comm]

theorem place_zero (k w : Nat) : place k (0#w) = 0#32 := by
  simp [place]

theorem place_zero_left {w : Nat} (f : BitVec w) : place 0 f = f.setWidth 32 := by
  simp [place]

/-- A concatenation, placed: the low part at the place, the high part above it. -/
theorem place_append {a b : Nat} (k : Nat) (hi : BitVec a) (lo : BitVec b) :
    place k (hi ++ lo) = place k lo ||| place (k + b) hi := by
  ext j hj
  simp only [place, BitVec.getElem_or, BitVec.getElem_shiftLeft, BitVec.getElem_setWidth, BitVec.getLsbD_append]
  by_cases hk : j < k
  · have hkb : j < k + b := by omega
    simp [hk, hkb]
  · by_cases hb : j < k + b
    · have hlo : j - k < b := by omega
      simp [hk, hb, hlo]
    · have hhi : b ≤ j - k := by omega
      simp [hk, hb, Nat.not_lt.2 hhi, BitVec.getLsbD_of_ge lo _ hhi, Nat.sub_sub]

theorem place_ofNat {w n : Nat} (k : Nat) (hw : w ≤ 32) (hn : n < 2 ^ w) :
    place k (BitVec.ofNat w n) = BitVec.ofNat 32 n <<< k := by
  rw [place, BitVec.setWidth_ofNat_of_le_of_lt hw hn]

/-- A field of a concatenation, read back at its place. -/
theorem extractLsb'_append_field {a w k : Nat} (hi : BitVec a) (f : BitVec w) (lo : BitVec k) :
    (hi ++ f ++ lo).extractLsb' k w = f := by
  rw [BitVec.extractLsb'_append_eq_of_le (Nat.le_refl k), Nat.sub_self, BitVec.extractLsb'_append_eq_right]

/-- A word is its OP and the bits above. -/
theorem eq_iff_opField_eq (x y : Word) :
    x = y ↔ opField x = opField y ∧ x &&& 0xFFFFFFF0 = y &&& 0xFFFFFFF0 := by
  constructor
  · rintro rfl
    exact ⟨rfl, rfl⟩
  · rintro ⟨hop, hhigh⟩
    have hlow : x &&& ~~~0xFFFFFFF0 = y &&& ~~~0xFFFFFFF0 := by
      calc x &&& place 0 (BitVec.allOnes 4) = place 0 (opField x) := (place_extractLsb' x 0 4).symm
        _ = place 0 (opField y) := by rw [hop]
        _ = y &&& place 0 (BitVec.allOnes 4) := place_extractLsb' y 0 4
    rw [← and_or_and_not x 0xFFFFFFF0, hhigh, hlow, and_or_and_not]

/-! ## The opcode map (R113) -/

/-- Every opcode fixes OP. -/
theorem opField_and_fixMask (d : Word) (op : BitVec 4) : opField (d &&& fixMask op) = opField d := by
  have hmask : opField (fixMask op) = BitVec.allOnes 4 := by revert op; decide
  have hand : opField (d &&& fixMask op) = opField d &&& opField (fixMask op) := BitVec.extractLsb'_and
  rw [hand, hmask, BitVec.and_allOnes]

/-- A word has the fixed bits of an opcode exactly when that is its OP and no other fixed bit is 1. -/
theorem and_fixMask_eq_iff (d : Word) (op : BitVec 4) :
    d &&& fixMask op = op.setWidth 32 ↔ opField d = op ∧ d &&& fixMask op &&& 0xFFFFFFF0 = 0 := by
  have hop : opField (op.setWidth 32) = op := by revert op; decide
  have hhigh : op.setWidth 32 &&& 0xFFFFFFF0 = (0 : Word) := by revert op; decide
  rw [eq_iff_opField_eq, opField_and_fixMask, hop, hhigh]

theorem getElem_opcodeMap : ∀ (k : Nat) (h : k < opcodeMap.length),
    opcodeMap[k] = ⟨fixMask (BitVec.ofNat 4 k), (BitVec.ofNat 4 k).setWidth 32⟩ := by
  decide

/-- A word matches a row of the opcode map exactly when it has the row's OP and a 0 in every other bit its OP fixes. -/
theorem matchesRow_iff (d : Word) {k : Nat} (h : k < opcodeMap.length) :
    d &&& opcodeMap[k].mask = opcodeMap[k].bits ↔
      opField d = BitVec.ofNat 4 k ∧ d &&& fixMask (opField d) &&& 0xFFFFFFF0 = 0 := by
  rw [getElem_opcodeMap, and_fixMask_eq_iff]
  exact and_congr_right fun hop => by rw [hop]

/-! ## The decoder (R113, R115, R116) -/

theorem decode_eq_illegalOp_iff (d : Word) : decode d = .error .illegalOp ↔ 8 ≤ (opField d).toNat := by
  unfold decode
  split
  · next h => simp [h]
  · next h => split <;> simp [h]

theorem decode_eq_badField_iff (d : Word) :
    decode d = .error .badField ↔ (opField d).toNat < 8 ∧ d &&& fixMask (opField d) &&& 0xFFFFFFF0 ≠ 0 := by
  unfold decode
  split
  · next h => simp [h]
  · next h => split <;> simp_all

theorem decode_eq_ok_iff (d : Word) (i : Instr) :
    decode d = .ok i ↔
      (opField d).toNat < 8 ∧ d &&& fixMask (opField d) &&& 0xFFFFFFF0 = 0 ∧ instrOf d = i := by
  unfold decode
  split
  · next h => simp [h]
  · next h => split <;> simp_all

/-- Settles O3: of the rows, a word of a legal OP can match that OP's row alone. -/
theorem decoderRefusesByOpcodeMap : Obligations.DecoderRefusesByOpcodeMap := by
  unfold Obligations.DecoderRefusesByOpcodeMap
  refine fun d => ⟨decode_eq_illegalOp_iff d, ?_⟩
  rw [decode_eq_badField_iff, List.forall_mem_iff_getElem]
  refine and_congr_right fun hop => ⟨fun hbad k hk hrow => hbad ((matchesRow_iff d hk).1 hrow).2, fun hno hzero => ?_⟩
  exact hno _ hop ((matchesRow_iff d hop).2 ⟨by simp, hzero⟩)

/-! ## The encoder (R114) -/

/-- The word with a count at N (R111): OP and the count, each at its place. -/
theorem append_count (n : BitVec 4) (op : BitVec 8) : (0#20 ++ n ++ op : Word) = op.setWidth 32 ||| place 8 n := by
  calc (0#20 ++ n ++ op : Word) = place 0 (0#20 ++ n ++ op) := by rw [place_zero_left, BitVec.setWidth_eq]
    _ = place 0 op ||| (place 8 n ||| place 12 0#20) := by rw [place_append, place_append]
    _ = op.setWidth 32 ||| place 8 n := by rw [place_zero, BitVec.or_zero, place_zero_left]

theorem encode_permFwd (n : BitVec 4) : encode (.permFwd n) = 2 ||| place 8 n := append_count n 2
theorem encode_permInv (n : BitVec 4) : encode (.permInv n) = 3 ||| place 8 n := append_count n 3
theorem encode_porEnc (n : BitVec 4) : encode (.porEnc n) = 4 ||| place 8 n := append_count n 4
theorem encode_porDec (n : BitVec 4) : encode (.porDec n) = 5 ||| place 8 n := append_count n 5

theorem encode_potProve (v : BitVec 5) : encode (.potProve v) = 6 ||| place 16 v := by
  calc (0#11 ++ v ++ 6#16 : Word) = place 0 (0#11 ++ v ++ 6#16) := by rw [place_zero_left, BitVec.setWidth_eq]
    _ = place 0 6#16 ||| (place 16 v ||| place 21 0#11) := by rw [place_append, place_append]
    _ = 6 ||| place 16 v := by rw [place_zero, BitVec.or_zero]; rfl

theorem encode_potVerify (v : BitVec 5) (first last : BitVec 4) :
    encode (.potVerify v first last) = 7 ||| place 16 v ||| place 24 first ||| place 28 last := by
  calc (last ++ first ++ 0#3 ++ v ++ 7#16 : Word) = place 0 (last ++ first ++ 0#3 ++ v ++ 7#16) := by
        rw [place_zero_left, BitVec.setWidth_eq]
    _ = place 0 7#16 ||| (place 16 v ||| (place 21 0#3 ||| (place 24 first ||| place 28 last))) := by
        rw [place_append, place_append, place_append, place_append]
    _ = 7 ||| place 16 v ||| place 24 first ||| place 28 last := by
        rw [place_zero, BitVec.zero_or, BitVec.or_assoc, BitVec.or_assoc]; rfl

theorem encode_matchesRow (i : Instr) : Laws.OpcodeRowMatches.Statement i := by
  cases i with
  | nop => exact Laws.OpcodeRowMatches.nop
  | keygen => exact Laws.OpcodeRowMatches.keygen
  | permFwd n => exact Laws.OpcodeRowMatches.permFwd n
  | permInv n => exact Laws.OpcodeRowMatches.permInv n
  | porEnc n => exact Laws.OpcodeRowMatches.porEnc n
  | porDec n => exact Laws.OpcodeRowMatches.porDec n
  | potProve v => exact Laws.OpcodeRowMatches.potProve v
  | potVerify v first last => exact Laws.OpcodeRowMatches.potVerify v first last

theorem rowOf_lt (i : Instr) : rowOf i < opcodeMap.length := by
  cases i <;> simp [rowOf, opcodeMap]

/-- A command's word has the command's OP and a 0 in every other bit that OP fixes. -/
theorem fixed_bits_encode (i : Instr) :
    opField (encode i) = BitVec.ofNat 4 (rowOf i) ∧ encode i &&& fixMask (opField (encode i)) &&& 0xFFFFFFF0 = 0 :=
  (matchesRow_iff _ (rowOf_lt i)).1 ((encode_matchesRow i _ (rowOf_lt i)).2 rfl)

theorem potVerify_fields (v : BitVec 5) (first last : BitVec 4) :
    vField (encode (.potVerify v first last)) = v ∧ firstField (encode (.potVerify v first last)) = first ∧
      lastField (encode (.potVerify v first last)) = last := by
  have habove {k : Nat} (hk : 21 ≤ k) :
      (last ++ first ++ 0#3 ++ v ++ 7#16).extractLsb' k 4 = (last ++ first ++ 0#3).extractLsb' (k - 16 - 5) 4 :=
    (BitVec.extractLsb'_append_eq_of_le (by omega)).trans (BitVec.extractLsb'_append_eq_of_le (by omega))
  have hlast : (last ++ first ++ 0#3).extractLsb' 7 4 = last :=
    (BitVec.extractLsb'_append_eq_of_le (by decide)).trans BitVec.extractLsb'_append_eq_left
  exact ⟨extractLsb'_append_field _ v _, (habove (by decide)).trans (extractLsb'_append_field last first 0#3),
    (habove (by decide)).trans hlast⟩

/-- The fields of a command stand where the decoder reads them. -/
theorem instrOf_encode (i : Instr) : instrOf (encode i) = i := by
  unfold instrOf
  rw [(fixed_bits_encode i).1]
  cases i with
  | nop | keygen => rfl
  | permFwd n => exact congrArg Instr.permFwd (extractLsb'_append_field _ n _)
  | permInv n => exact congrArg Instr.permInv (extractLsb'_append_field _ n _)
  | porEnc n => exact congrArg Instr.porEnc (extractLsb'_append_field _ n _)
  | porDec n => exact congrArg Instr.porDec (extractLsb'_append_field _ n _)
  | potProve v => exact congrArg Instr.potProve (extractLsb'_append_field _ v _)
  | potVerify v first last =>
    obtain ⟨hv, hfirst, hlast⟩ := potVerify_fields v first last
    exact congr (congr (congrArg Instr.potVerify hv) hfirst) hlast

/-- Settles O1: a command's word matches the command's row, and its fields read back. -/
theorem decodeOfEncode : Obligations.DecodeOfEncode := by
  unfold Obligations.DecodeOfEncode
  intro i
  obtain ⟨hop, hzero⟩ := fixed_bits_encode i
  have hlegal : (opField (encode i)).toNat < 8 := by
    rw [hop, BitVec.toNat_ofNat]
    exact Nat.lt_of_le_of_lt (Nat.mod_le _ _) (rowOf_lt i)
  exact (decode_eq_ok_iff _ _).2 ⟨hlegal, hzero, instrOf_encode i⟩

/-- The command a word of each legal OP stands for. -/
theorem instrOf_cases {d : Word} (h : (opField d).toNat < 8) :
    (opField d = 0 ∧ instrOf d = .nop) ∨ (opField d = 1 ∧ instrOf d = .keygen) ∨
    (opField d = 2 ∧ instrOf d = .permFwd (nField d)) ∨ (opField d = 3 ∧ instrOf d = .permInv (nField d)) ∨
    (opField d = 4 ∧ instrOf d = .porEnc (nField d)) ∨ (opField d = 5 ∧ instrOf d = .porDec (nField d)) ∨
    (opField d = 6 ∧ instrOf d = .potProve (vField d)) ∨
    (opField d = 7 ∧ instrOf d = .potVerify (vField d) (firstField d) (lastField d)) := by
  unfold instrOf
  generalize opField d = op at h ⊢
  have hop : op = BitVec.ofNat 4 op.toNat := by simp
  interval_cases hk : op.toNat <;> simp [hop]

/-- The encoder puts OP and the free fields of a word back, and nothing else of it. -/
theorem encode_instrOf {d : Word} (h : (opField d).toNat < 8) :
    encode (instrOf d) = (opField d).setWidth 32 ||| d &&& ~~~fixMask (opField d) := by
  rcases instrOf_cases h with
    ⟨hop, hi⟩ | ⟨hop, hi⟩ | ⟨hop, hi⟩ | ⟨hop, hi⟩ | ⟨hop, hi⟩ | ⟨hop, hi⟩ | ⟨hop, hi⟩ | ⟨hop, hi⟩ <;> rw [hop, hi]
  · exact (BitVec.and_zero (x := d)).symm.trans (BitVec.zero_or).symm
  · exact congrArg (1 ||| ·) (BitVec.and_zero (x := d)).symm
  · rw [encode_permFwd, nField, place_extractLsb']; rfl
  · rw [encode_permInv, nField, place_extractLsb']; rfl
  · rw [encode_porEnc, nField, place_extractLsb']; rfl
  · rw [encode_porDec, nField, place_extractLsb']; rfl
  · rw [encode_potProve, vField, place_extractLsb']; rfl
  · rw [encode_potVerify, vField, firstField, lastField, place_extractLsb', place_extractLsb', place_extractLsb',
      BitVec.or_assoc, BitVec.or_assoc, ← BitVec.and_or_distrib_left, ← BitVec.and_or_distrib_left]
    rfl

/-- Settles O2: the fixed bits of an accepted word are its OP's, and the encoder puts back the others. -/
theorem encodeOfDecode : Obligations.EncodeOfDecode := by
  unfold Obligations.EncodeOfDecode
  intro d i h
  obtain ⟨hop, hzero, rfl⟩ := (decode_eq_ok_iff d i).1 h
  rw [encode_instrOf hop, ← (and_fixMask_eq_iff d _).2 ⟨rfl, hzero⟩, and_or_and_not]

/-- Settles O4: each of the words is what its command encodes to. -/
theorem workedEncodingsDecode : Obligations.WorkedEncodingsDecode := by
  unfold Obligations.WorkedEncodingsDecode
  have hword {d : Word} {i : Instr} (h : encode i = d) : decode d = .ok i := h ▸ decodeOfEncode i
  exact ⟨hword (by decide), hword (by decide), hword (by decide), hword (by decide), hword (by decide),
    hword (by decide), hword (by decide)⟩

end Sys2Proof
end

section
/-! The assembler's words, and the words that launch rejects as no command (R115, R116, R119). -/

namespace Sys2Proof.Machine

/-! ## The assembler (R119) -/

theorem fits_of_lt {w n : Nat} (h : n < 2 ^ w) : fits w n = some (BitVec.ofNat w n) := if_pos h

theorem fits_eq_none {w n : Nat} (h : ¬n < 2 ^ w) : fits w n = none := if_neg h

/-- The word of a mnemonic with one operand. -/
theorem map_encode_fits {w k : Nat} {op : Word} {f : BitVec w → Instr} (hf : ∀ x, encode (f x) = op ||| place k x)
    (hw : w ≤ 32) (n : Nat) :
    ((fits w n).map f).map encode = if n < 2 ^ w then some (op ||| BitVec.ofNat 32 n <<< k) else none := by
  split
  · next h => rw [fits_of_lt h, Option.map_some, Option.map_some, hf, place_ofNat k hw h]
  · next h => rw [fits_eq_none h]; rfl

theorem map_encode_assemblePotVerify (v f l : Nat) :
    (assemblePotVerify v f l).map encode =
      if v < 32 ∧ f < 16 ∧ l < 16 then
        some ((7 : Word) ||| BitVec.ofNat 32 v <<< 16 ||| BitVec.ofNat 32 f <<< 24 ||| BitVec.ofNat 32 l <<< 28)
      else none := by
  unfold assemblePotVerify
  by_cases hv : v < 2 ^ 5
  · by_cases hf : f < 2 ^ 4
    · by_cases hl : l < 2 ^ 4
      · rw [if_pos ⟨hv, hf, hl⟩, fits_of_lt hv, fits_of_lt hf, fits_of_lt hl, Option.map_some, encode_potVerify,
          place_ofNat _ (by decide) hv, place_ofNat _ (by decide) hf, place_ofNat _ (by decide) hl]
      · rw [if_neg fun h => hl h.2.2, fits_eq_none hl]
        simp
    · rw [if_neg fun h => hf h.2.1, fits_eq_none hf]
      simp
  · rw [if_neg fun h => hv h.1, fits_eq_none hv]
    simp

/-- Settles O5: the encoder's word is OP with each operand at its place. -/
theorem assemblerWords : Obligations.AssemblerWords := by
  unfold Obligations.AssemblerWords
  exact ⟨rfl, rfl, map_encode_fits encode_permFwd (by decide), map_encode_fits encode_permInv (by decide),
    map_encode_fits encode_porEnc (by decide), map_encode_fits encode_porDec (by decide),
    map_encode_fits encode_potProve (by decide), map_encode_assemblePotVerify⟩

/-! ## Words that are no command (R115, R116) -/

theorem check_of_illegalOp {d : Word} (h : decode d = .error .illegalOp) (s : State) : check s d = some .illegalOp := by
  rw [check, h]

theorem check_of_badField {d : Word} (h : decode d = .error .badField) (s : State) : check s d = some .badField := by
  rw [check, h]

theorem launch_of_check {s : State} {d : Word} {e : ErrCode} (hidle : s.busy = false) (h : check s d = some e) :
    launch d s = s.reject e := by
  simp [launch, hidle, h]

/-- The bits `m` are among those an opcode fixes to 0. -/
def FixedToZero (op : BitVec 4) (m : Word) : Prop := fixMask op &&& 0xFFFFFFF0 &&& m = m

theorem decode_of_stray_bit {d m : Word} (hop : (opField d).toNat < 8) (hfixed : FixedToZero (opField d) m)
    (hbit : d &&& m ≠ 0) : decode d = .error .badField :=
  (decode_eq_badField_iff d).2 ⟨hop, by rw [BitVec.and_assoc]; exact and_ne_zero_of_submask hfixed hbit⟩

/-- R116's masks: the reserved bits, and each field for the opcodes that do not use it. -/
theorem fixedToZero_cases : ∀ op : BitVec 4, op.toNat < 8 →
    FixedToZero op 0x00E0F0F0 ∧ (op.toNat ∉ [2, 3, 4, 5] → FixedToZero op 0x00000F00) ∧
      (op.toNat ∉ [6, 7] → FixedToZero op 0x001F0000) ∧ (op.toNat ≠ 7 → FixedToZero op 0xFF000000) := by
  unfold FixedToZero
  decide

/-- Settles O8: each of the bits listed is one that the word's opcode fixes to 0. -/
theorem malformedWordsRejected : Obligations.MalformedWordsRejected := by
  unfold Obligations.MalformedWordsRejected
  refine ⟨fun d s hidle hop => ?_, fun d s hidle hop hstray => ?_, fun d h => ?_⟩
  · exact launch_of_check hidle (check_of_illegalOp ((decode_eq_illegalOp_iff d).2 hop) s)
  · obtain ⟨hreserved, hn, hv, hrange⟩ := fixedToZero_cases _ hop
    have hbad : decode d = .error .badField := by
      rcases hstray with hbit | ⟨hfree, hbit⟩ | ⟨hfree, hbit⟩ | ⟨hfree, hbit⟩
      · exact decode_of_stray_bit hop hreserved hbit
      · exact decode_of_stray_bit hop (hn hfree) hbit
      · exact decode_of_stray_bit hop (hv hfree) hbit
      · exact decode_of_stray_bit hop (hrange hfree) hbit
    exact launch_of_check hidle (check_of_badField hbad s)
  · exact (encodeOfDecode d .nop h).symm

end Sys2Proof.Machine
end

section
/-! Check (R144): each command's own tests, and the chain they make together. -/

namespace Sys2Proof.Machine

/-! ## The tests of the fields -/

/-- The number STATUS shows for what Check answers: 0 for an accepted word (R144, R290). -/
def errCode (o : Option ErrCode) : BitVec 4 := (o.map ErrCode.code).getD 0

theorem errCode_or_ite (p : Prop) [Decidable p] (e : ErrCode) (o : Option ErrCode) :
    errCode ((if p then some e else none).or o) = if p then e.code else errCode o := by
  split <;> rfl

theorem errCode_ite (p : Prop) [Decidable p] (e : ErrCode) :
    errCode (if p then some e else none) = if p then e.code else 0 := by
  split <;> rfl

theorem errCode_countError_or (s : State) (n : BitVec 4) (o : Option ErrCode) :
    errCode ((countError s n).or o) =
      if ¬(n.toNat = 1 ∨ n.toNat = 4 ∨ n.toNat = 8 ∨ n.toNat = 12) then 3
      else if s.cfg.accepts n.toNat = false then 9 else errCode o := by
  have hlegal : (!legalCounts.contains n.toNat) = true ↔
      ¬(n.toNat = 1 ∨ n.toNat = 4 ∨ n.toNat = 8 ∨ n.toNat = 12) := by simp [legalCounts]
  unfold countError
  simp only [hlegal, Bool.not_eq_true']
  split
  · rfl
  · exact errCode_or_ite ..

theorem errCode_vparError_or (v : BitVec 5) (o : Option ErrCode) :
    errCode ((vparError v).or o) =
      if ¬(v.toNat = 4 ∨ v.toNat = 8 ∨ v.toNat = 12 ∨ v.toNat = 16) then 6 else errCode o := by
  have hlegal : (!legalCheckpointCounts.contains v.toNat) = true ↔
      ¬(v.toNat = 4 ∨ v.toNat = 8 ∨ v.toNat = 12 ∨ v.toNat = 16) := by simp [legalCheckpointCounts]
  unfold vparError
  simp only [hlegal]
  exact errCode_or_ite ..

theorem errCode_rangeError_or {v : BitVec 5} (hv : v.toNat ≠ 0) (first last : BitVec 4) (o : Option ErrCode) :
    errCode ((rangeError v first last).or o) =
      if ¬(first.toNat ≤ last.toNat ∧ last.toNat ≤ v.toNat - 1) then 7 else errCode o := by
  have hrange : last.toNat + 1 ≤ v.toNat ↔ last.toNat ≤ v.toNat - 1 := by omega
  unfold rangeError
  simp only [hrange]
  split <;> rfl

/-! ### The tests of each command, without those that R144 makes of other opcodes alone -/

theorem errCode_keygen (s : State) :
    errCode (instrError s .keygen) = if s.cfg.hasKeygen = false then 9 else 0 := by
  unfold instrError
  cases s.cfg.hasKeygen <;> rfl

theorem errCode_countError (s : State) (n : BitVec 4) :
    errCode (countError s n) =
      if ¬(n.toNat = 1 ∨ n.toNat = 4 ∨ n.toNat = 8 ∨ n.toNat = 12) then 3
      else if s.cfg.accepts n.toNat = false then 9 else 0 := by
  rw [← Option.or_none (o := countError s n), errCode_countError_or]
  rfl

theorem errCode_por (s : State) (n : BitVec 4) :
    errCode ((countError s n).or ((porIterError s).or (breadthError s))) =
      if ¬(n.toNat = 1 ∨ n.toNat = 4 ∨ n.toNat = 8 ∨ n.toNat = 12) then 3
      else if s.cfg.accepts n.toNat = false then 9
      else if s.iter.toNat = 0 then 4
      else if s.breadth.toNat = 0 then 5 else 0 := by
  rw [errCode_countError_or, porIterError, errCode_or_ite, breadthError, errCode_ite]
  rfl

theorem errCode_potProve (s : State) (v : BitVec 5) :
    errCode ((vparError v).or (proveIterError s v)) =
      if ¬(v.toNat = 4 ∨ v.toNat = 8 ∨ v.toNat = 12 ∨ v.toNat = 16) then 6
      else if s.iter.toNat = 0 ∨ s.iter.toNat % v.toNat ≠ 0 ∨ s.iter.toNat % s.cfg.quantum ≠ 0 then 4 else 0 := by
  rw [errCode_vparError_or, proveIterError, errCode_ite]
  rfl

/-- V is not 0 where R144 comes to LAST ≤ V − 1, so V − 1 does not fall short of 0. -/
theorem errCode_potVerify (s : State) (v : BitVec 5) (first last : BitVec 4) :
    errCode ((vparError v).or ((rangeError v first last).or (verifyIterError s v))) =
      if ¬(v.toNat = 4 ∨ v.toNat = 8 ∨ v.toNat = 12 ∨ v.toNat = 16) then 6
      else if ¬(first.toNat ≤ last.toNat ∧ last.toNat ≤ v.toNat - 1) then 7
      else if s.iter.toNat = 0 ∨ s.iter.toNat % v.toNat ≠ 0 then 4 else 0 := by
  rw [errCode_vparError_or]
  refine if_ctx_congr Iff.rfl (fun _ => rfl) fun hlegal => ?_
  rw [errCode_rangeError_or (by omega), verifyIterError, errCode_ite]
  rfl

/-! ## The chain -/

/-- FIXMASK as R144 lists it. -/
theorem fixMask_eq_getD : ∀ op : BitVec 4, op.toNat < 8 → fixMask op =
    [0xFFFFFFFF, 0xFFFFFFFF, 0xFFFFF0FF, 0xFFFFF0FF, 0xFFFFF0FF, 0xFFFFF0FF, 0xFFE0FFFF, 0x00E0FFFF].getD op.toNat 0 := by
  decide

theorem extractLsb'_eq_field (d : Word) :
    d.extractLsb' 0 4 = opField d ∧ d.extractLsb' 8 4 = nField d ∧ d.extractLsb' 16 5 = vField d ∧
      d.extractLsb' 24 4 = firstField d ∧ d.extractLsb' 28 4 = lastField d := ⟨rfl, rfl, rfl, rfl, rfl⟩

theorem check_of_ok {d : Word} {i : Instr} (h : decode d = .ok i) (s : State) : check s d = instrError s i := by
  rw [check, h]

/-- Settles O7: past OP and the fixed bits, each command's own tests are those of the chain that apply to its opcode, in the
same order. -/
theorem checkIsThePriorityChain : Obligations.CheckIsThePriorityChain := by
  unfold Obligations.CheckIsThePriorityChain
  intro s d
  change errCode (check s d) = _
  simp only [extractLsb'_eq_field]
  by_cases hop : 8 ≤ (opField d).toNat
  · rw [if_pos hop, check_of_illegalOp ((decode_eq_illegalOp_iff d).2 hop)]
    rfl
  rw [if_neg hop]
  have hlegal := Nat.lt_of_not_le hop
  rw [← fixMask_eq_getD _ hlegal]
  by_cases hzero : d &&& fixMask (opField d) &&& 0xFFFFFFF0 = 0
  · rw [if_neg (not_not.2 hzero), check_of_ok ((decode_eq_ok_iff d _).2 ⟨hlegal, hzero, rfl⟩)]
    rcases instrOf_cases hlegal with
      ⟨h, hi⟩ | ⟨h, hi⟩ | ⟨h, hi⟩ | ⟨h, hi⟩ | ⟨h, hi⟩ | ⟨h, hi⟩ | ⟨h, hi⟩ | ⟨h, hi⟩ <;> rw [h, hi]
    · rfl
    · simp [errCode_keygen]
    · simp [instrError, errCode_countError]
    · simp [instrError, errCode_countError]
    · simp [instrError, errCode_por]
    · simp [instrError, errCode_por]
    · simp [instrError, errCode_potProve]
    · simp [instrError, errCode_potVerify]
  · rw [if_pos hzero, check_of_badField ((decode_eq_badField_iff d).2 ⟨hlegal, hzero⟩)]
    rfl

end Sys2Proof.Machine
end

section
/-! The engine's turn and the completions (40_command_lifecycle.md): whose turn runs which command, why none is refused, what
a completion leaves unchanged and when it faults. -/

namespace Sys2Proof.Machine

/-! ## The engine's turn (R143) -/

theorem step_of_engineNext {s : State} {rest : List Input} (h : s.EngineNext rest) :
    step s = engineTurn (s.setInputs rest) := by
  rcases h with hin | ⟨hin, rfl⟩
  · simp only [step, takeTurn, hin]
  · have hsame : s.setInputs [] = s := by rw [← hin]; rfl
    simp only [step, takeTurn, hin, hsame]

theorem engineTurn_of_idle {s : State} (hidle : s.busy = false) : engineTurn s = .next s := by
  simp [engineTurn, hidle]

theorem engineTurn_of_decode {s : State} {i : Instr} (hb : s.busy = true) (hd : decode s.cur = .ok i) :
    engineTurn s = exec i s := by
  simp [engineTurn, hb, hd]

/-- Settles O9: with the turn taken off, BUSY and CUR are as before. -/
theorem stepRunsDecodedCommand : Obligations.StepRunsDecodedCommand := by
  unfold Obligations.StepRunsDecodedCommand
  refine fun s rest hturn => ⟨fun i hb hd => ?_, fun hidle => ?_⟩
  · rw [step_of_engineNext hturn, engineTurn_of_decode (by simpa using hb) (by simpa using hd)]
    rfl
  · rw [step_of_engineNext hturn, engineTurn_of_idle (by simpa using hidle)]
    rfl

/-! ## No refusal (R142) -/

/-- Every command has its meaning. -/
theorem exec_ne_refused (i : Instr) (s : State) (r : Refusal) : exec i s ≠ .refused r := by
  cases i with
  | nop => exact nofun
  | keygen => exact needs_ne_refused fun _ => nofun
  | permFwd | permInv | potProve => exact needs_ne_refused fun _ => needs_ne_refused fun _ => nofun
  | porEnc | porDec | potVerify =>
    exact needs_ne_refused fun _ => needs_ne_refused fun _ => needs_ne_refused fun _ => nofun

theorem hostTransaction_ne_refused (x : HostTxn) (s : State) (r : Refusal) : hostTransaction x s ≠ .refused r := by
  unfold hostTransaction hostRead
  split
  · exact nofun
  · split
    case h_8 =>
      rcases readData_cases (byteOffset x.wa) s with ⟨-, -, he⟩ | ⟨w, -, he⟩ | ⟨-, he⟩ <;> rw [he] <;> exact nofun
    all_goals exact nofun

/-- CUR holds a command while BUSY = 1, for it passes Check. -/
theorem State.Inv.engineTurn_ne_refused {s : State} (h : s.Inv) (r : Refusal) : Machine.engineTurn s ≠ .refused r := by
  cases hb : s.busy with
  | false => rw [engineTurn_of_idle hb]; exact nofun
  | true =>
    obtain ⟨i, hd, -⟩ := (check_eq_none_iff s s.cur).1 (h.runningChecked hb)
    rw [engineTurn_of_decode hb hd]
    exact exec_ne_refused i s r

/-- Settles O56: only the engine's turn can refuse, and the invariant gives it a command to run. -/
theorem invariantExcludesRefusal : Obligations.InvariantExcludesRefusal := by
  unfold Obligations.InvariantExcludesRefusal
  intro s r h
  show takeTurn s ≠ .refused r
  rcases takeTurn_cases s with ⟨-, he⟩ |
    ⟨_, rest, -, ⟨-, he⟩ | ⟨x, -, he⟩ | ⟨a, w, d, -, he⟩ | ⟨-, he⟩⟩ <;> rw [he]
  · exact h.engineTurn_ne_refused r
  · exact (h.setInputs rest).engineTurn_ne_refused r
  · exact hostTransaction_ne_refused x _ r
  · rcases bridgeAccess_cases a w d (s.setInputs rest) with ⟨x, -, hx⟩ | ⟨-, hx⟩ <;> rw [hx]
    · exact hostTransaction_ne_refused x _ r
    · exact nofun
  · exact nofun

/-! ## What a completion changes (R143, R146) -/

/-- Settles O10: NOP's Effect is empty. -/
theorem nopCompletes : Obligations.NopCompletes := by
  unfold Obligations.NopCompletes
  exact fun _ => rfl

/-- Settles O19: a completion stores in its write set, or it is a POT_VERIFY and sets VOK. -/
theorem completionFrame : Obligations.CompletionFrame := by
  unfold Obligations.CompletionFrame
  intro i s t h
  rcases exec_cases h with ⟨m, hm, rfl⟩ | ⟨v, first, last, b, rfl, rfl⟩
  · exact ⟨rfl, hm.frame, fun _ => rfl⟩
  · exact ⟨rfl, fun _ _ => rfl, fun hother => absurd rfl (hother v first last)⟩

/-! ## When a completion faults (R147) -/

/-- Every byte at an offset of `p` is defined (R53). -/
def Mem.Defined (m : Mem) (p : Nat → Bool) : Prop := ∀ a, p a = true → m.get a ≠ none

theorem Mem.defined_or (m : Mem) (p q : Nat → Bool) :
    m.Defined (fun a => p a || q a) ↔ m.Defined p ∧ m.Defined q := by
  simp only [Mem.Defined, Bool.or_eq_true, or_imp, forall_and]

theorem Mem.defined_none (m : Mem) : m.Defined fun _ => false := fun _ h => by simp at h

/-- Consecutive ranges of bytes are one range. -/
theorem Mem.defined_within_append (m : Mem) (a n k : Nat) :
    m.Defined (within a (n + k)) ↔ m.Defined (within a n) ∧ m.Defined (within (a + n) k) := by
  rw [← Mem.defined_or]
  refine forall_congr' fun b => ?_
  have hsplit : within a (n + k) b = true ↔ (within a n b || within (a + n) k b) = true := by
    simp only [Bool.or_eq_true, within_eq_true]
    omega
  rw [hsplit]

/-- An operand that is undefined exactly when one of `n` bytes is has a value exactly when they are all defined. -/
theorem isSome_iff_defined {α : Type} {o : Option α} {m : Mem} {a n : Nat}
    (h : o = none ↔ ∃ i < n, m.get (a + i) = none) : o.isSome = true ↔ m.Defined (within a n) := by
  rw [Option.isSome_iff_ne_none, ne_eq, h]
  constructor
  · intro hno b hb hundef
    rw [within_eq_true] at hb
    exact hno ⟨b - a, by omega, by rwa [Nat.add_sub_cancel' hb.1]⟩
  · rintro hdef ⟨i, hi, hundef⟩
    exact hdef (a + i) (within_eq_true.2 ⟨by omega, by omega⟩) hundef

section
variable (s : State)

theorem ksFwd_isSome : s.ksFwd.isSome = true ↔ s.mem.Defined (within ksFwdBase 176) :=
  isSome_iff_defined (Mem.read_eq_none_iff _ _ 176)

theorem ksInv_isSome : s.ksInv.isSome = true ↔ s.mem.Defined (within ksInvBase 176) :=
  isSome_iff_defined (Mem.read_eq_none_iff _ _ 176)

theorem ident_isSome : s.ident.isSome = true ↔ s.mem.Defined (within identBase 16) :=
  isSome_iff_defined (Mem.read_eq_none_iff _ _ 16)

theorem seed_isSome : s.seed.isSome = true ↔ s.mem.Defined (within seedBase 16) :=
  isSome_iff_defined (Mem.read_eq_none_iff _ _ 16)

theorem checkpoint_isSome (k : Nat) :
    (s.checkpoint k).isSome = true ↔ s.mem.Defined (within (proofBase + 16 * k) 16) :=
  isSome_iff_defined (Mem.read_eq_none_iff _ _ 16)

theorem checkpoints_isSome (first last : BitVec 4) : (s.checkpoints first last).isSome = true ↔
    s.mem.Defined (within (proofBase + 16 * first.toNat) (16 * (last.toNat + 1 - first.toNat))) :=
  isSome_iff_defined (Mem.readBlocks_eq_none_iff _ _ _)

theorem lanes_isSome (n : BitVec 4) :
    (s.lanes n).isSome = true ↔ s.mem.Defined (within laneBase (16 * slots s.cfg n)) :=
  isSome_iff_defined (Mem.readBlocks_eq_none_iff _ _ _)

theorem ivs_isSome (n : BitVec 4) :
    (s.ivs n).isSome = true ↔ s.mem.Defined (within ivBase (16 * slots s.cfg n)) :=
  isSome_iff_defined (Mem.readBlocks_eq_none_iff _ _ _)

theorem pieces_isSome (n : BitVec 4) :
    (s.pieces n).isSome = true ↔ s.mem.Defined (within pieceBase (4096 * slots s.cfg n)) :=
  isSome_iff_defined (Mem.readPieces_eq_none_iff _ _ _)

/-- The checkpoints of a range and what its first interval starts from are SEED, if FIRST = 0, and the checkpoints
max(FIRST − 1, 0) .. LAST (R147, R266). -/
theorem range_isSome {first last : BitVec 4} (hle : first.toNat ≤ last.toNat) :
    (s.predecessor first).isSome = true ∧ (s.checkpoints first last).isSome = true ↔
      s.mem.Defined (fun a => first == 0 && within seedBase 16 a) ∧
        s.mem.Defined (within (proofBase + 16 * (first.toNat - 1)) (16 * (last.toNat + 1 - (first.toNat - 1)))) := by
  rw [checkpoints_isSome]
  by_cases hzero : first = 0
  · subst hzero
    exact and_congr_left' (seed_isSome s)
  · have hpos : first.toNat ≠ 0 := fun h => hzero (BitVec.eq_of_toNat_eq h)
    have hbase : proofBase + 16 * first.toNat = proofBase + 16 * (first.toNat - 1) + 16 := by omega
    have hsize : 16 * (last.toNat + 1 - (first.toNat - 1)) = 16 + 16 * (last.toNat + 1 - first.toNat) := by omega
    have hpred : s.predecessor first = s.checkpoint (first.toNat - 1) := if_neg hpos
    have hnoseed : s.mem.Defined fun a => first == 0 && within seedBase 16 a := fun a ha =>
      absurd (beq_iff_eq.1 (Bool.and_eq_true_iff.1 ha).1) hzero
    rw [hpred, checkpoint_isSome, hsize, Mem.defined_within_append, hbase]
    exact (and_iff_right hnoseed).symm

end

/-- The outcome is a next state if `P` holds, and the fault of R147 if not. -/
def CompletesIff (o : Host.Outcome State Fault Refusal) (P : Prop) : Prop :=
  (¬P → o = .fault .undefinedInput) ∧ (P → ∃ t, o = .next t)

theorem CompletesIff.next (t : State) : CompletesIff (.next t) True :=
  ⟨fun h => absurd trivial h, fun _ => ⟨t, rfl⟩⟩

theorem CompletesIff.needs {α : Type} {input : Option α} {k : α → Host.Outcome State Fault Refusal} {P : Prop}
    (h : ∀ v, CompletesIff (k v) P) : CompletesIff (Machine.needs input k) (input.isSome = true ∧ P) := by
  cases input with
  | none => exact ⟨fun _ => rfl, nofun⟩
  | some v => simpa using h v

theorem CompletesIff.congr {o : Host.Outcome State Fault Refusal} {P Q : Prop} (h : CompletesIff o P) (hPQ : P ↔ Q) :
    CompletesIff o Q := by
  rwa [← hPQ]

/-- Whether a completion has all of its operands is whether its read set is defined. -/
theorem exec_completesIff {i : Instr} (hwf : i.wellFormed = true) (s : State) :
    CompletesIff (exec i s) (s.mem.Defined (readSet s.cfg i)) := by
  cases i with
  | nop => exact (CompletesIff.next _).congr (iff_of_true trivial s.mem.defined_none)
  | keygen =>
    refine (CompletesIff.needs fun _ => .next _).congr ?_
    rw [ident_isSome, and_true]
    rfl
  | permFwd | permInv | potProve =>
    refine (CompletesIff.needs fun _ => .needs fun _ => .next _).congr ?_
    simp only [ksFwd_isSome, ksInv_isSome, lanes_isSome, seed_isSome, and_true]
    exact (Mem.defined_or _ _ _).symm
  | porEnc | porDec =>
    refine (CompletesIff.needs fun _ => .needs fun _ => .needs fun _ => .next _).congr ?_
    rw [and_true, ← and_assoc]
    simp only [ksFwd_isSome, ksInv_isSome, ivs_isSome, pieces_isSome, ← Mem.defined_or]
    rfl
  | potVerify v first last =>
    simp only [Instr.wellFormed, Bool.and_eq_true, decide_eq_true_eq] at hwf
    obtain ⟨⟨-, hle⟩, -⟩ := hwf
    refine (CompletesIff.needs fun _ => .needs fun _ => .needs fun _ => .next _).congr ?_
    rw [and_true, range_isSome s hle, ksInv_isSome, ← and_assoc, ← Mem.defined_or, ← Mem.defined_or]
    rfl

/-- Settles O18: a completion goes on past each operand exactly when the operand's bytes are defined. -/
theorem faultsExactlyOnUndefinedInput : Obligations.FaultsExactlyOnUndefinedInput := by
  unfold Obligations.FaultsExactlyOnUndefinedInput
  intro s i hwf
  obtain ⟨hfault, hnext⟩ := exec_completesIff hwf s
  exact ⟨fun ⟨a, hread, hundef⟩ => hfault fun hdef => hdef a hread hundef, hnext⟩

end Sys2Proof.Machine
end

section
/-! The default cipher undoes itself (R171 to R173, R192 to R199): the field GF(2^8), the transformations of a round and their
inverses, and the rounds under one schedule and its inverse schedule. -/

namespace Sys2Proof.Machine

/-! ## GF(2^8) (R196) -/

/-- A summand present for one of two bits alone is the sum of the summands for each. -/
theorem ite_bne_eq_xor (p q : Bool) (x : Byte) :
    (if (p ^^ q) = true then x else 0) = (if p = true then x else 0) ^^^ (if q = true then x else 0) := by
  cases p <;> cases q <;> simp

theorem xtime_xor (a b : Byte) : xtime (a ^^^ b) = xtime a ^^^ xtime b := by
  simp only [xtime, BitVec.shiftLeft_xor_distrib, BitVec.getLsbD_xor, ite_bne_eq_xor]
  ac_rfl

theorem xtime_zero : xtime 0 = 0 := by decide

theorem xtime_iterate_xor (n : Nat) (a b : Byte) : xtime^[n] (a ^^^ b) = xtime^[n] a ^^^ xtime^[n] b :=
  Function.Semiconj₂.iterate (op := (· ^^^ ·)) xtime_xor n a b

theorem gfMulBelow_xor (a b c : Byte) (n : Nat) : gfMulBelow a (b ^^^ c) n = gfMulBelow a b n ^^^ gfMulBelow a c n := by
  induction n with
  | zero => exact BitVec.xor_self.symm
  | succ n ih =>
    simp only [gfMulBelow, ih, BitVec.getLsbD_xor, ite_bne_eq_xor]
    ac_rfl

theorem xor_gfMulBelow (a b c : Byte) (n : Nat) : gfMulBelow (a ^^^ b) c n = gfMulBelow a c n ^^^ gfMulBelow b c n := by
  induction n with
  | zero => exact BitVec.xor_self.symm
  | succ n ih =>
    simp only [gfMulBelow, ih, xtime_iterate_xor]
    cases c.getLsbD n
    · simp
    · simp only [if_true]; ac_rfl

/-- Multiplication distributes over ⊕ on the right. -/
theorem gfMul_xor (a b c : Byte) : gfMul a (b ^^^ c) = gfMul a b ^^^ gfMul a c := gfMulBelow_xor a b c 8

/-- Multiplication distributes over ⊕ on the left. -/
theorem xor_gfMul (a b c : Byte) : gfMul (a ^^^ b) c = gfMul a c ^^^ gfMul b c := xor_gfMulBelow a b c 8

theorem gfMul_zero_right (a : Byte) : gfMul a 0 = 0 := by
  have h := gfMul_xor a 0 0
  rwa [BitVec.xor_self, BitVec.xor_self] at h

theorem gfMul_zero_left (b : Byte) : gfMul 0 b = 0 := by
  have h := xor_gfMul 0 0 b
  rwa [BitVec.xor_self, BitVec.xor_self] at h

theorem gfMul_one_left : ∀ b : Byte, gfMul 1 b = b := by decide +kernel

/-- The bits of `b <<< 1` are those of `b`, one place higher. -/
theorem gfMulBelow_shiftLeft_one (a b : Byte) {n : Nat} (hn : n < 8) :
    gfMulBelow a (b <<< 1) (n + 1) = xtime (gfMulBelow a b n) := by
  induction n with
  | zero =>
    rw [gfMulBelow, gfMulBelow, xtime_zero, if_neg (by simp)]
    exact BitVec.xor_zero
  | succ n ih =>
    have hbit : (b <<< 1).getLsbD (n + 1) = b.getLsbD n := by
      rw [BitVec.getLsbD_shiftLeft, Nat.add_sub_cancel]
      simp [hn]
    rw [gfMulBelow, ih (by omega), hbit, gfMulBelow, xtime_xor, apply_ite xtime, xtime_zero,
      Function.iterate_succ_apply']

/-- The field's polynomial: x^8 is the byte 0x1B (R196). -/
theorem gfMul_poly : ∀ a : Byte, gfMul a 0x1B = xtime^[8] a := by decide +kernel

theorem gfMul_xtime (a b : Byte) : gfMul a (xtime b) = xtime (gfMul a b) := by
  have hshift : gfMul a (b <<< 1) = xtime (gfMulBelow a b 7) := gfMulBelow_shiftLeft_one a b (by omega)
  calc gfMul a (xtime b)
      = xtime (gfMulBelow a b 7) ^^^ (if b.getLsbD 7 then xtime^[8] a else 0) := by
        rw [xtime, gfMul_xor, hshift, apply_ite (gfMul a), gfMul_poly, gfMul_zero_right]
    _ = xtime (gfMulBelow a b 7 ^^^ (if b.getLsbD 7 then xtime^[7] a else 0)) := by
        rw [xtime_xor, apply_ite xtime, xtime_zero, ← Function.iterate_succ_apply' xtime 7]
    _ = xtime (gfMul a b) := rfl

theorem gfMul_gfMulBelow (a b c : Byte) (n : Nat) : gfMul a (gfMulBelow b c n) = gfMulBelow (gfMul a b) c n := by
  induction n with
  | zero => exact gfMul_zero_right a
  | succ n ih =>
    have hcomm : gfMul a (xtime^[n] b) = xtime^[n] (gfMul a b) :=
      (show Function.Commute (gfMul a) xtime from gfMul_xtime a).iterate_right n b
    rw [gfMulBelow, gfMul_xor, ih, gfMulBelow, apply_ite (gfMul a), hcomm, gfMul_zero_right]

/-- Multiplication is associative. -/
theorem gfMul_assoc (a b c : Byte) : gfMul a (gfMul b c) = gfMul (gfMul a b) c := gfMul_gfMulBelow a b c 8

/-! ## The transformations of a round (R194 to R197) -/

theorem invSbox_sbox : ∀ x : Byte, invSbox (sbox x) = x := by decide +kernel

@[simp] theorem byte_subBytes (s : Block) {i : Nat} (hi : i < 16) : (subBytes s).byte i = sbox (s.byte i) :=
  Block.byte_ofFn _ i hi

@[simp] theorem byte_invSubBytes (s : Block) {i : Nat} (hi : i < 16) : (invSubBytes s).byte i = invSbox (s.byte i) :=
  Block.byte_ofFn _ i hi

@[simp] theorem byte_shiftRows (s : Block) {i : Nat} (hi : i < 16) :
    (shiftRows s).byte i = s.byte (i % 4 + 4 * ((i / 4 + i % 4) % 4)) :=
  Block.byte_ofFn _ i hi

@[simp] theorem byte_invShiftRows (s : Block) {i : Nat} (hi : i < 16) :
    (invShiftRows s).byte i = s.byte (i % 4 + 4 * ((i / 4 + 4 - i % 4) % 4)) :=
  Block.byte_ofFn _ i hi

theorem invSubBytes_subBytes (s : Block) : invSubBytes (subBytes s) = s :=
  Block.ext_bytes fun i hi => by rw [byte_invSubBytes _ hi, byte_subBytes _ hi, invSbox_sbox]

theorem invShiftRows_shiftRows (s : Block) : invShiftRows (shiftRows s) = s := by
  refine Block.ext_bytes fun i hi => ?_
  rw [byte_invShiftRows _ hi, byte_shiftRows _ (by omega)]
  congr 1
  omega

/-- Byte `r` of column `c` of a product with a circulant matrix (R193, R197). -/
theorem byte_mixWith (m0 m1 m2 m3 : Byte) (s : Block) {c r : Nat} (hc : c < 4) (hr : r < 4) :
    (mixWith m0 m1 m2 m3 s).byte (4 * c + r) =
      gfMul m0 (s.byte (4 * c + r)) ^^^ gfMul m1 (s.byte (4 * c + (r + 1) % 4))
        ^^^ gfMul m2 (s.byte (4 * c + (r + 2) % 4)) ^^^ gfMul m3 (s.byte (4 * c + (r + 3) % 4)) := by
  have hcol : (4 * c + r) / 4 = c := by omega
  have hrow : (4 * c + r) % 4 = r := by omega
  rw [mixWith, Block.byte_ofFn _ _ (by omega), hcol, hrow]

/-- Two Blocks with the same bytes in each column are equal. -/
theorem eq_of_columns {s t : Block} (h : ∀ c < 4, ∀ r < 4, s.byte (4 * c + r) = t.byte (4 * c + r)) : s = t :=
  Block.ext_bytes fun i hi => by
    have hi' := h (i / 4) (by omega) (i % 4) (by omega)
    rwa [Nat.div_add_mod] at hi'

/-- The matrix product of two circulant matrices, column by column. -/
theorem mixWith_mixWith (m0 m1 m2 m3 n0 n1 n2 n3 : Byte) (s : Block) :
    mixWith m0 m1 m2 m3 (mixWith n0 n1 n2 n3 s) =
      mixWith (gfMul m0 n0 ^^^ gfMul m1 n3 ^^^ gfMul m2 n2 ^^^ gfMul m3 n1)
        (gfMul m0 n1 ^^^ gfMul m1 n0 ^^^ gfMul m2 n3 ^^^ gfMul m3 n2)
        (gfMul m0 n2 ^^^ gfMul m1 n1 ^^^ gfMul m2 n0 ^^^ gfMul m3 n3)
        (gfMul m0 n3 ^^^ gfMul m1 n2 ^^^ gfMul m2 n1 ^^^ gfMul m3 n0) s := by
  refine eq_of_columns fun c hc r hr => ?_
  have hmod (k : Nat) : k % 4 < 4 := Nat.mod_lt k (by omega)
  simp only [byte_mixWith _ _ _ _ _ hc hr, byte_mixWith _ _ _ _ _ hc (hmod _), gfMul_xor, xor_gfMul, gfMul_assoc]
  interval_cases r <;> ac_rfl

/-- A circulant matrix acts linearly. -/
theorem mixWith_xor (m0 m1 m2 m3 : Byte) (s t : Block) :
    mixWith m0 m1 m2 m3 (s ^^^ t) = mixWith m0 m1 m2 m3 s ^^^ mixWith m0 m1 m2 m3 t := by
  refine eq_of_columns fun c hc r hr => ?_
  simp only [Block.byte_xor, byte_mixWith _ _ _ _ _ hc hr, gfMul_xor]
  ac_rfl

theorem mixWith_identity (s : Block) : mixWith 1 0 0 0 s = s :=
  eq_of_columns fun c hc r hr => by
    simp only [byte_mixWith _ _ _ _ _ hc hr, gfMul_one_left, gfMul_zero_left]
    simp

theorem invMixColumns_xor (s t : Block) : invMixColumns (s ^^^ t) = invMixColumns s ^^^ invMixColumns t :=
  mixWith_xor _ _ _ _ s t

/-- The two circulant matrices of R197 are inverse to each other. -/
theorem invMixColumns_mixColumns (s : Block) : invMixColumns (mixColumns s) = s := by
  have hprod : invMixColumns (mixColumns s) = mixWith 1 0 0 0 s := mixWith_mixWith _ _ _ _ _ _ _ _ s
  rw [hprod, mixWith_identity]

/-! ## Rounds under a schedule and its inverse schedule (R173, R199) -/

theorem addRoundKey_addRoundKey (ks : KeySchedule) (k : Nat) (s : Block) : addRoundKey ks k (addRoundKey ks k s) = s := by
  simp only [addRoundKey, BitVec.xor_assoc, BitVec.xor_self, BitVec.xor_zero]

theorem rk_zero_inverseSchedule (f : KeySchedule) : (inverseSchedule f).rk 0 = f.rk 10 :=
  KeySchedule.rk_ofRoundKeys _ 0 (by omega)

theorem rk_ten_inverseSchedule (f : KeySchedule) : (inverseSchedule f).rk 10 = f.rk 0 :=
  KeySchedule.rk_ofRoundKeys _ 10 (by omega)

theorem rk_inverseSchedule (f : KeySchedule) {k : Nat} (hpos : 1 ≤ k) (hk : k ≤ 9) :
    (inverseSchedule f).rk k = invMixColumns (f.rk (10 - k)) := by
  rw [inverseSchedule, KeySchedule.rk_ofRoundKeys _ k (by omega), if_neg (by omega), if_neg (by omega)]

theorem invSubBytes_invShiftRows_undo (s : Block) : invSubBytes (invShiftRows (shiftRows (subBytes s))) = s := by
  rw [invShiftRows_shiftRows, invSubBytes_subBytes]

/-- An inverse round key is a forward one through InvMixColumns, so that it cancels the key of a round after MixColumns has
been undone (R173). -/
theorem addRoundKey_inverseSchedule (f : KeySchedule) (s : Block) {k : Nat} (hpos : 1 ≤ k) (hk : k ≤ 9) :
    addRoundKey (inverseSchedule f) k (invMixColumns (addRoundKey f (10 - k) (mixColumns s))) = s := by
  rw [addRoundKey, addRoundKey, rk_inverseSchedule f hpos hk, invMixColumns_xor, invMixColumns_mixColumns,
    BitVec.xor_assoc, BitVec.xor_self, BitVec.xor_zero]

/-- Inverse round `n` takes the state after the S-boxes and row shifts of one forward round to that of the round before. -/
theorem invRounds_fwdRounds (f : KeySchedule) (s : Block) {n : Nat} (hn : n ≤ 9) :
    invRounds (inverseSchedule f) (shiftRows (subBytes (fwdRounds f s 9))) n =
      shiftRows (subBytes (fwdRounds f s (9 - n))) := by
  induction n with
  | zero => rfl
  | succ n ih =>
    have hround : fwdRounds f s (9 - n) =
        addRoundKey f (10 - (n + 1)) (mixColumns (shiftRows (subBytes (fwdRounds f s (9 - (n + 1)))))) := by
      rw [show 9 - n = 9 - (n + 1) + 1 by omega, fwdRounds, show 9 - (n + 1) + 1 = 10 - (n + 1) by omega]
    rw [invRounds, ih (by omega), invSubBytes_invShiftRows_undo, hround,
      addRoundKey_inverseSchedule f _ (by omega) hn]

/-- Inv under the inverse schedule of R173 undoes Fwd under the schedule, for every schedule. -/
theorem aesInv_aesFwd (f : KeySchedule) (b : Block) : aesInv (inverseSchedule f) (aesFwd f b) = b := by
  have hfirst (s : Block) : addRoundKey (inverseSchedule f) 0 s = addRoundKey f 10 s := by
    rw [addRoundKey, rk_zero_inverseSchedule, addRoundKey]
  have hlast (s : Block) : addRoundKey (inverseSchedule f) 10 s = addRoundKey f 0 s := by
    rw [addRoundKey, rk_ten_inverseSchedule, addRoundKey]
  rw [aesInv, aesFwd, hfirst, addRoundKey_addRoundKey, invRounds_fwdRounds f _ (Nat.le_refl 9),
    invSubBytes_invShiftRows_undo, hlast]
  exact addRoundKey_addRoundKey f 0 b

/-! ## Every PERM and KEYEXP (R171) -/

/-- One application of Inv undoes one of Fwd (R191): for the default pair by R173, for any other by the law it carries. -/
theorem permInvBlock_permFwdBlock (p : CipherSel) (id b : Block) :
    permInvBlock p (keyExpand p id).2 (permFwdBlock p (keyExpand p id).1 b) = b := by
  rcases cipher_cases p with ⟨hf, hi, hk⟩ | ⟨hf, hi, e, hk⟩ | ⟨k, c, hf, hi, hk⟩ <;> rw [hf, hi, hk]
  · exact aesInv_aesFwd _ b
  · exact e.inv_fwd id b
  · exact c.inv_fwd id b

/-- Settles O24: what holds at one application holds of any number. -/
theorem matchingSchedulesInvert : Obligations.MatchingSchedulesInvert := by
  unfold Obligations.MatchingSchedulesInvert
  intro p id b r
  have hinv : Function.LeftInverse (permInvBlock p (keyExpand p id).2) (permFwdBlock p (keyExpand p id).1) :=
    permInvBlock_permFwdBlock p id
  exact hinv.iterate r b

end Sys2Proof.Machine
end

section
/-! KEYGEN (R175) and the key expansion it runs by default (R172, R173), byte by byte. -/

namespace Sys2Proof.Machine

/-! ## Bytes of words, round keys and schedules (R12) -/

/-- A part of a part of a bit vector. -/
theorem extractLsb'_extractLsb' {v : Nat} (x : BitVec v) {k n i m : Nat} (h : i + m ≤ n) :
    (x.extractLsb' k n).extractLsb' i m = x.extractLsb' (k + i) m := by
  apply BitVec.eq_of_getLsbD_eq
  intro j hj
  rw [BitVec.getLsbD_extractLsb', BitVec.getLsbD_extractLsb', BitVec.getLsbD_extractLsb',
    decide_eq_true (show i + j < n by omega), Bool.true_and, Nat.add_assoc]

theorem byte_eq_byte_of_word (b : Block) {w j : Nat} (hj : j < 4) :
    b.byte (4 * w + j) = (b.extractLsb' (32 * w) 32).extractLsb' (8 * j) 8 := by
  rw [extractLsb'_extractLsb' _ (by omega), Block.byte, show 8 * (4 * w + j) = 32 * w + 8 * j by omega]

theorem byte_eq_byte_of_rk (ks : KeySchedule) {k i : Nat} (hi : i < 16) :
    ks.extractLsb' (8 * (16 * k + i)) 8 = (ks.rk k).byte i := by
  rw [KeySchedule.rk, Block.byte, extractLsb'_extractLsb' _ (by omega),
    show 8 * (16 * k + i) = 128 * k + 8 * i by omega]

theorem extractLsb'_block_word (w : Nat → Word) {i : Nat} (hi : i < 4) :
    (w 3 ++ w 2 ++ w 1 ++ w 0 : Block).extractLsb' (32 * i) 32 = w i := by
  apply BitVec.eq_of_getLsbD_eq
  intro j hj
  simp only [BitVec.getLsbD_extractLsb', BitVec.getLsbD_append, hj, decide_true, Bool.true_and]
  interval_cases i <;> interval_cases j <;> rfl

/-! ## One round key from the one before (R172) -/

theorem byte_rotWord (x : Word) {j : Nat} (hj : j < 4) :
    (rotWord x).extractLsb' (8 * j) 8 = x.extractLsb' (8 * ((j + 1) % 4)) 8 := by
  apply BitVec.eq_of_getLsbD_eq
  intro b hb
  simp only [rotWord, BitVec.getLsbD_extractLsb', BitVec.getLsbD_rotateRight, hb, decide_true, Bool.true_and]
  interval_cases j <;> interval_cases b <;> rfl

theorem byte_subWord (x : Word) {j : Nat} (hj : j < 4) :
    (subWord x).extractLsb' (8 * j) 8 = sbox (x.extractLsb' (8 * j) 8) :=
  extractLsb'_word_byte (fun j => sbox (x.extractLsb' (8 * j) 8)) hj

theorem byte_setWidth (c : Byte) {j : Nat} (hj : j < 4) :
    (c.setWidth 32 : Word).extractLsb' (8 * j) 8 = if j = 0 then c else 0 := by
  apply BitVec.eq_of_getLsbD_eq
  intro b hb
  rw [BitVec.getLsbD_extractLsb', BitVec.getLsbD_setWidth, decide_eq_true hb, decide_eq_true (show 8 * j + b < 32 by omega)]
  split
  · next h => rw [h, Nat.mul_zero, Nat.zero_add, Bool.true_and, Bool.true_and]
  · next h => rw [BitVec.getLsbD_of_ge _ _ (by omega), Bool.and_false, Bool.and_false]; exact BitVec.getLsbD_zero.symm

/-- The words 4i, 4i + 1, … of the recurrence of R172, after the words w[4i−4 .. 4i−1] in `k`. -/
def keyWord (i : Nat) (k : Block) : Nat → Word
  | 0 => k.extractLsb' (32 * 0) 32 ^^^ (subWord (rotWord (k.extractLsb' (32 * 3) 32)) ^^^ (rcon i).setWidth 32)
  | w + 1 => k.extractLsb' (32 * (w + 1)) 32 ^^^ keyWord i k w

theorem word_nextRoundKey (i : Nat) (k : Block) {w : Nat} (hw : w < 4) :
    (nextRoundKey i k).extractLsb' (32 * w) 32 = keyWord i k w :=
  extractLsb'_block_word (keyWord i k) hw

theorem byte_nextRoundKey_first (i : Nat) (k : Block) {j : Nat} (hj : j < 4) :
    (nextRoundKey i k).byte (4 * 0 + j) =
      k.byte (4 * 0 + j) ^^^ (sbox (k.byte (4 * 3 + (j + 1) % 4)) ^^^ if j = 0 then rcon i else 0) := by
  rw [byte_eq_byte_of_word _ hj, byte_eq_byte_of_word _ hj, byte_eq_byte_of_word k (w := 3) (by omega),
    word_nextRoundKey i k (by omega), keyWord, BitVec.extractLsb'_xor, BitVec.extractLsb'_xor, byte_subWord _ hj,
    byte_rotWord _ hj, byte_setWidth _ hj]

theorem byte_nextRoundKey_succ (i : Nat) (k : Block) {w j : Nat} (hw : w < 3) (hj : j < 4) :
    (nextRoundKey i k).byte (4 * (w + 1) + j) = k.byte (4 * (w + 1) + j) ^^^ (nextRoundKey i k).byte (4 * w + j) := by
  rw [byte_eq_byte_of_word _ hj, byte_eq_byte_of_word _ hj, byte_eq_byte_of_word _ hj,
    word_nextRoundKey i k (by omega), word_nextRoundKey i k (by omega), keyWord, BitVec.extractLsb'_xor]

/-! ## The default key expansion (R172, R173) -/

theorem keyExpand_aes {p : CipherSel} (h : p.keyExp = .aes128) : keyExpand p = aesKeyExp := by
  rcases p with ⟨_ | n, k⟩
  all_goals
    obtain rfl : k = .aes128 := h
    rfl

/-- Byte `j` of word 4k + w of F is in word `w` of round key `k`. -/
theorem byte_aesKeyExp (id : Block) {k w j : Nat} (hk : k < 11) (hw : w < 4) (hj : j < 4) :
    (aesKeyExp id).1.extractLsb' (8 * (4 * (4 * k + w) + j)) 8 = (aesRoundKey id k).byte (4 * w + j) := by
  rw [show 4 * (4 * k + w) + j = 16 * k + (4 * w + j) by omega, byte_eq_byte_of_rk _ (by omega)]
  exact congrArg (fun b : Block => b.byte (4 * w + j)) (KeySchedule.rk_ofRoundKeys (aesRoundKey id) k hk)

/-- The recurrence of R172 at word 4(k + 1) + w, the words before it counted back from there. -/
theorem aesKeyExp_recurrence (id : Block) {k w j : Nat} (hk : k < 10) (hw : w < 4) (hj : j < 4) :
    let f := fun n : Nat => (aesKeyExp id).1.extractLsb' (8 * n) 8
    let i := 4 * (k + 1) + w
    f (4 * i + j) = f (4 * (i - 4) + j) ^^^
      (if i % 4 = 0 then sbox (f (4 * (i - 1) + (j + 1) % 4)) ^^^ (if j = 0 then rcon (i / 4) else 0)
      else f (4 * (i - 1) + j)) := by
  intro f i
  have hf {q v b : Nat} (hq : q < 11) (hv : v < 4) (hb : b < 4) :
      f (4 * (4 * q + v) + b) = (aesRoundKey id q).byte (4 * v + b) := byte_aesKeyExp id hq hv hb
  have hi : i - 4 = 4 * k + w := by omega
  rw [hi, hf (by omega) hw hj, hf (by omega) hw hj]
  cases w with
  | zero =>
    have hprev : i - 1 = 4 * k + 3 := by omega
    have hdiv : i / 4 = k + 1 := by omega
    rw [if_pos (by omega), hprev, hdiv, hf (by omega) (by omega) (by omega)]
    exact byte_nextRoundKey_first (k + 1) (aesRoundKey id k) hj
  | succ w =>
    have hprev : i - 1 = 4 * (k + 1) + w := by omega
    rw [if_neg (by omega), hprev, hf (by omega) (by omega) hj]
    exact byte_nextRoundKey_succ (k + 1) (aesRoundKey id k) (by omega) hj

/-- Settles O22: F is built one round key at a time, and I from F's round keys. -/
theorem defaultKeyExpansion : Obligations.DefaultKeyExpansion := by
  unfold Obligations.DefaultKeyExpansion
  intro p id hp
  rw [keyExpand_aes hp]
  refine ⟨fun k hk => ?_, fun i j hlo hhi hj => ?_, rk_zero_inverseSchedule _, fun k => rk_inverseSchedule _,
    rk_ten_inverseSchedule _⟩
  · have h := byte_aesKeyExp id (k := 0) (w := k / 4) (j := k % 4) (by omega) (by omega) (by omega)
    rwa [show 4 * (4 * 0 + k / 4) + k % 4 = k by omega, show 4 * (k / 4) + k % 4 = k by omega] at h
  · obtain ⟨k, w, hw, rfl⟩ : ∃ k w, w < 4 ∧ i = 4 * (k + 1) + w := ⟨i / 4 - 1, i % 4, by omega, by omega⟩
    exact aesKeyExp_recurrence id (by omega) hw hj

/-! ## KEYGEN (R175) -/

/-- What a completion leaves of a state when it stores in `p` alone (R143). -/
theorem State.CompletesWithin.completedFrom {s t : State} {p : Nat → Bool} (h : s.CompletesWithin t p) :
    t.CompletedFrom s p := by
  obtain ⟨m, hm, rfl⟩ := h
  exact ⟨rfl, hm.frame⟩

theorem Mem.readSchedule_writeSchedule_same (m : Mem) (a : Nat) (ks : KeySchedule) :
    (m.writeSchedule a ks).readSchedule a = some ks :=
  Mem.read_write_same m a 176 ks

theorem Mem.readSchedule_writeSchedule_disjoint (m : Mem) (a : Nat) (ks : KeySchedule) (a' : Nat)
    (h : a' + 176 ≤ a ∨ a + 176 ≤ a') : (m.writeSchedule a ks).readSchedule a' = m.readSchedule a' :=
  Mem.read_write_disjoint m a 176 ks a' 176 h

theorem ksInv_loadSchedules (s : State) (fi : KeySchedule × KeySchedule) : (s.loadSchedules fi).ksInv = some fi.2 := by
  rw [State.ksInv, State.loadSchedules, State.setMem_mem, Mem.readSchedule_writeSchedule_same]

/-- The store to KS_INV leaves KS_FWD alone. -/
theorem ksFwd_loadSchedules (s : State) (fi : KeySchedule × KeySchedule) : (s.loadSchedules fi).ksFwd = some fi.1 := by
  rw [State.ksFwd, State.loadSchedules, State.setMem_mem, Mem.readSchedule_writeSchedule_disjoint _ _ _ _ (by decide),
    Mem.readSchedule_writeSchedule_same]

@[simp] theorem State.finish_ksFwd (s : State) : s.finish.ksFwd = s.ksFwd := by
  rw [State.ksFwd, State.finish_mem, State.ksFwd]

@[simp] theorem State.finish_ksInv (s : State) : s.finish.ksInv = s.ksInv := by
  rw [State.ksInv, State.finish_mem, State.ksInv]

theorem exec_keygen_of_ident {s : State} {id : Block} (h : s.ident = some id) :
    exec .keygen s = .next (s.loadSchedules (keyExpand s.cfg.cipher id)).finish := by
  show needs s.ident _ = _
  rw [h, needs_some]

/-- Settles O11: the completion stores both schedules, in its write set. -/
theorem keygenCompletes : Obligations.KeygenCompletes := by
  unfold Obligations.KeygenCompletes
  intro s id hid
  have hexec := exec_keygen_of_ident hid
  refine ⟨_, hexec, ?_, ?_, (execKeygen_completes hexec).completedFrom⟩
  · rw [State.finish_ksFwd, ksFwd_loadSchedules]
  · rw [State.finish_ksInv, ksInv_loadSchedules]

end Sys2Proof.Machine
end

section
/-! The default cipher as 42_round_pipeline.md writes it (R191 to R199): the S-box from inversion in GF(2^8), each column of
MixColumns, the rounds one by one, and Fwd as a bijection. -/

namespace Sys2Proof.Machine

/-! ## The S-box (R194) -/

/-- The affine map A of R194. -/
def affine (y : Byte) : Byte := y ^^^ y.rotateLeft 1 ^^^ y.rotateLeft 2 ^^^ y.rotateLeft 3 ^^^ y.rotateLeft 4

/-- A undone. -/
def invAffine (y : Byte) : Byte := y.rotateLeft 1 ^^^ y.rotateLeft 3 ^^^ y.rotateLeft 6

/-- x⁻¹ as the SBOX table has it: SBOX[x] with its constant and A taken off; 0 for x = 0. -/
def gfInverse (x : Byte) : Byte := invAffine (sbox x ^^^ 0x63)

theorem sbox_eq_affine_gfInverse : ∀ x : Byte, sbox x = affine (gfInverse x) ^^^ 0x63 := by decide +kernel

theorem gfMul_gfInverse : ∀ x : Byte, x ≠ 0 → gfMul x (gfInverse x) = 1 := by decide +kernel

theorem gfInverse_gfMul : ∀ x : Byte, x ≠ 0 → gfMul (gfInverse x) x = 1 := by decide +kernel

theorem gfMul_one_right : ∀ a : Byte, gfMul a 1 = a := by decide +kernel

/-- A byte has one inverse only. -/
theorem eq_gfInverse {x y : Byte} (h : gfMul x y = 1) : y = gfInverse x := by
  have hx : x ≠ 0 := by
    rintro rfl
    rw [gfMul_zero_left] at h
    exact absurd h (by decide)
  calc y = gfMul (gfMul (gfInverse x) x) y := by rw [gfInverse_gfMul x hx, gfMul_one_left]
    _ = gfInverse x := by rw [← gfMul_assoc, h, gfMul_one_right]

/-- On the finite set of bytes a left inverse is a right inverse. -/
theorem sbox_invSbox : Function.LeftInverse sbox invSbox :=
  Function.LeftInverse.rightInverse_of_card_le invSbox_sbox le_rfl

/-- Settles O20: the inverse of a byte is the one that its table entry is made from. -/
theorem sboxDefinition : Obligations.SboxDefinition := by
  unfold Obligations.SboxDefinition
  refine ⟨fun s i hi => ⟨byte_subBytes s hi, byte_invSubBytes s hi⟩, by decide, fun x y hxy => ?_,
    fun x hx => ⟨gfInverse x, gfMul_gfInverse x hx⟩, fun x => ⟨invSbox_sbox x, sbox_invSbox x⟩⟩
  rw [eq_gfInverse hxy]
  exact sbox_eq_affine_gfInverse x

/-! ## The columns (R197) -/

/-- The four bytes of a column after a circulant matrix: each row of the matrix is the one above it, moved by one place. -/
theorem column_mixWith (m0 m1 m2 m3 : Byte) (s : Block) {c : Nat} (hc : c < 4) :
    let a := fun r => s.byte (r + 4 * c)
    let b := fun r => (mixWith m0 m1 m2 m3 s).byte (r + 4 * c)
    b 0 = gfMul m0 (a 0) ^^^ gfMul m1 (a 1) ^^^ gfMul m2 (a 2) ^^^ gfMul m3 (a 3) ∧
    b 1 = gfMul m3 (a 0) ^^^ gfMul m0 (a 1) ^^^ gfMul m1 (a 2) ^^^ gfMul m2 (a 3) ∧
    b 2 = gfMul m2 (a 0) ^^^ gfMul m3 (a 1) ^^^ gfMul m0 (a 2) ^^^ gfMul m1 (a 3) ∧
    b 3 = gfMul m1 (a 0) ^^^ gfMul m2 (a 1) ^^^ gfMul m3 (a 2) ^^^ gfMul m0 (a 3) := by
  intro a b
  have hb {r : Nat} (hr : r < 4) : b r = gfMul m0 (a r) ^^^ gfMul m1 (a ((r + 1) % 4))
      ^^^ gfMul m2 (a ((r + 2) % 4)) ^^^ gfMul m3 (a ((r + 3) % 4)) := by
    have h := byte_mixWith m0 m1 m2 m3 s hc hr
    simpa only [Nat.add_comm (4 * c)] using h
  refine ⟨hb (by omega), ?_, ?_, ?_⟩
  all_goals
    rw [hb (by omega)]
    ac_rfl

/-- Settles O21: both transformations are circulant matrices, and the example is a column of the first. -/
theorem mixColumnsRule : Obligations.MixColumnsRule := by
  unfold Obligations.MixColumnsRule
  refine ⟨fun s c hc => ⟨column_mixWith _ _ _ _ s hc, column_mixWith _ _ _ _ s hc⟩, invMixColumns_mixColumns,
    fun s h0 h1 h2 h3 => ?_⟩
  obtain ⟨hb0, hb1, hb2, hb3⟩ := column_mixWith 2 3 1 1 s (c := 0) (by omega)
  simp only [h0, h1, h2, h3] at hb0 hb1 hb2 hb3
  exact ⟨hb0.trans (by decide), hb1.trans (by decide), hb2.trans (by decide), hb3.trans (by decide)⟩

/-! ## The rounds (R195, R198, R199) -/

theorem byte_shiftRows_column (s : Block) {r c : Nat} (hr : r < 4) (hc : c < 4) :
    (shiftRows s).byte (r + 4 * c) = s.byte (r + 4 * ((c + r) % 4)) := by
  rw [byte_shiftRows s (by omega), show (r + 4 * c) % 4 = r by omega, show (r + 4 * c) / 4 = c by omega]

theorem byte_invShiftRows_column (s : Block) {r c : Nat} (hr : r < 4) (hc : c < 4) :
    (invShiftRows s).byte (r + 4 * c) = s.byte (r + 4 * ((c + 4 - r) % 4)) := by
  rw [byte_invShiftRows s (by omega), show (r + 4 * c) % 4 = r by omega, show (r + 4 * c) / 4 = c by omega]

/-- Blocks that start as the rounds do and follow them for nine rounds end as they do. -/
theorem eq_rounds {a rounds : Nat → Block} {round : Nat → Block → Block} (h0 : a 0 = rounds 0)
    (ha : ∀ r, 1 ≤ r → r ≤ 9 → a r = round r (a (r - 1))) (hrounds : ∀ r, rounds (r + 1) = round (r + 1) (rounds r))
    {n : Nat} (hn : n ≤ 9) : a n = rounds n := by
  induction n with
  | zero => exact h0
  | succ n ih => rw [ha (n + 1) (by omega) hn, hrounds, Nat.add_sub_cancel, ih (by omega)]

/-- Fwd is a bijection for every schedule (R191): the default because Inv undoes it and Blocks are finitely many. -/
theorem aesFwd_bijective (ks : KeySchedule) : Function.Bijective (aesFwd ks) :=
  Finite.injective_iff_bijective.1 (Function.LeftInverse.injective (aesInv_aesFwd ks))

theorem permFwdBlock_bijective (p : CipherSel) (ks : KeySchedule) : Function.Bijective (permFwdBlock p ks) := by
  rcases cipher_cases p with ⟨hf, -, -⟩ | ⟨hf, -, -⟩ | ⟨_, c, hf, -, -⟩ <;> rw [hf]
  · exact aesFwd_bijective ks
  · exact aesFwd_bijective ks
  · exact c.fwd_bijective ks

/-- Settles O23: the Blocks passed through are the rounds of the definition. -/
theorem defaultFwdInvRoundsAndFwdBijective : Obligations.DefaultFwdInvRoundsAndFwdBijective := by
  unfold Obligations.DefaultFwdInvRoundsAndFwdBijective
  refine ⟨fun s r c hr hc => ⟨byte_shiftRows_column s hr hc, byte_invShiftRows_column s hr hc⟩,
    fun p ks b a hp h0 => ⟨fun ha => ?_, fun ha => ?_⟩, permFwdBlock_bijective⟩
  · have h9 : a 9 = fwdRounds ks (addRoundKey ks 0 b) 9 :=
      eq_rounds (round := fun r x => addRoundKey ks r (mixColumns (shiftRows (subBytes x)))) h0 ha
        (fun _ => rfl) le_rfl
    rw [permFwdBlock_aes hp, h9]
    rfl
  · have h9 : a 9 = invRounds ks (addRoundKey ks 0 b) 9 :=
      eq_rounds (round := fun r x => addRoundKey ks r (invMixColumns (invSubBytes (invShiftRows x)))) h0 ha
        (fun _ => rfl) le_rfl
    rw [permInvBlock_aes hp, h9]
    rfl

end Sys2Proof.Machine
end

section
/-! The round pipeline (42_round_pipeline.md): PERM_FWD and PERM_INV as one operation on the lanes (R200 to R204). -/

namespace Sys2Proof.Machine

/-! ## One operation for both commands (R200, R201) -/

/-- LANE[j] <- f(ks)^ITER(LANE[j]) for each lane a count `n` names, with `bank` holding the schedule `ks`. -/
def permLanes (bank : Option KeySchedule) (f : KeySchedule → Block → Block) (n : BitVec 4) (s : State) :
    Host.Outcome State Fault Refusal :=
  needs bank fun ks => needs (s.lanes n) fun bs => .next (s.setLanes (bs.map (f ks)^[s.iter.toNat])).finish

theorem exec_permFwd (n : BitVec 4) (s : State) :
    exec (.permFwd n) s = permLanes s.ksFwd (permFwdBlock s.cfg.cipher) n s := rfl

theorem exec_permInv (n : BitVec 4) (s : State) :
    exec (.permInv n) s = permLanes s.ksInv (permInvBlock s.cfg.cipher) n s := rfl

/-! ## The lanes a count names, together and one by one (R39) -/

theorem lanes_eq_some_iff (s : State) (n : BitVec 4) (bs : List Block) :
    s.lanes n = some bs ↔ bs.length = slots s.cfg n ∧ ∀ j (hj : j < bs.length), s.lane j = some bs[j] :=
  Mem.readBlocks_eq_some_iff _ _ _ _

theorem lanes_of_lane {s : State} {n : BitVec 4} {b : Nat → Block} (hb : ∀ j < slots s.cfg n, s.lane j = some (b j)) :
    s.lanes n = some ((List.range (slots s.cfg n)).map b) :=
  (lanes_eq_some_iff _ _ _).2 ⟨by simp, fun j hj => by simpa using hb j (by simpa using hj)⟩

theorem lane_finish_setLanes (s : State) (bs : List Block) {j : Nat} (hj : j < bs.length) :
    (s.setLanes bs).finish.lane j = some bs[j] :=
  Mem.readBlock_writeBlocks s.mem laneBase bs j hj

/-! ## What the operation does -/

/-- `t` is a completion of `s` that has put each lane a count `n` names through `g`, and stored nothing else. -/
structure State.PutsLanesThrough (s t : State) (n : BitVec 4) (g : Block → Block) : Prop where
  /-- The lanes alone are stored. -/
  completed : t.CompletedFrom s (within laneBase (16 * slots s.cfg n))
  /-- Each lane was defined and holds its image. -/
  lane : ∀ j < slots s.cfg n, ∃ b, s.lane j = some b ∧ t.lane j = some (g b)

section
variable {bank : Option KeySchedule} {f : KeySchedule → Block → Block} {n : BitVec 4} {s t : State}

/-- All that the operation can do when it answers a next state. -/
theorem permLanes_eq_next (h : permLanes bank f n s = .next t) :
    ∃ ks, bank = some ks ∧ s.PutsLanesThrough t n (f ks)^[s.iter.toNat] := by
  obtain ⟨ks, hks, h⟩ := needs_eq_next h
  obtain ⟨bs, hbs, h⟩ := needs_eq_next h
  obtain rfl := Host.Outcome.next.inj h
  obtain ⟨hlen, hlane⟩ := (lanes_eq_some_iff _ _ _).1 hbs
  refine ⟨ks, hks, State.CompletesWithin.completedFrom ⟨_, lanes_storesWithin hbs _, rfl⟩, fun j hj => ?_⟩
  refine ⟨bs[j], hlane j (by omega), ?_⟩
  rw [lane_finish_setLanes _ _ (by rw [List.length_map]; omega), List.getElem_map]

/-- The operation completes when the bank and the lanes are defined. -/
theorem permLanes_completes {ks : KeySchedule} {b : Nat → Block} (hks : bank = some ks)
    (hb : ∀ j < slots s.cfg n, s.lane j = some (b j)) :
    ∃ t, permLanes bank f n s = .next t ∧ (∀ j < slots s.cfg n, t.lane j = some ((f ks)^[s.iter.toNat] (b j))) ∧
      t.CompletedFrom s (within laneBase (16 * slots s.cfg n)) := by
  obtain ⟨t, hnext⟩ : ∃ t, permLanes bank f n s = .next t :=
    ⟨_, by rw [permLanes, hks, lanes_of_lane hb, needs_some, needs_some]⟩
  obtain ⟨_, hks', hput⟩ := permLanes_eq_next hnext
  obtain rfl := Option.some.inj (hks.symm.trans hks')
  refine ⟨t, hnext, fun j hj => ?_, hput.completed⟩
  obtain ⟨_, hold, hnew⟩ := hput.lane j hj
  rwa [Option.some.inj ((hb j hj).symm.trans hold)]

/-- A lane's result depends on the bank, the permutation, ITER and the lane alone (R202, R203). -/
theorem permLanes_lane_eq {bank' : Option KeySchedule} {f' : KeySchedule → Block → Block} {n' : BitVec 4} {s' t' : State}
    {j : Nat} (hbank : bank = bank') (hf : f = f') (hiter : s.iter = s'.iter) (hlane : s.lane j = s'.lane j)
    (hj : j < slots s.cfg n) (hj' : j < slots s'.cfg n') (h : permLanes bank f n s = .next t)
    (h' : permLanes bank' f' n' s' = .next t') : t.lane j = t'.lane j := by
  subst hbank hf
  obtain ⟨ks, hks, hput⟩ := permLanes_eq_next h
  obtain ⟨ks', hks', hput'⟩ := permLanes_eq_next h'
  obtain ⟨b, hold, hnew⟩ := hput.lane j hj
  obtain ⟨b', hold', hnew'⟩ := hput'.lane j hj'
  obtain rfl : ks = ks' := Option.some.inj (hks.symm.trans hks')
  obtain rfl : b = b' := Option.some.inj (hold.symm.trans (hlane.trans hold'))
  rw [hnew, hnew', hiter]

/-- Two memories that hold the same Block at `a` agree on its bytes. -/
theorem Mem.get_eq_of_readBlock {m m' : Mem} {a : Nat} {b : Block} (h : m.readBlock a = some b)
    (h' : m'.readBlock a = some b) {i : Nat} (hi : i < 16) : m'.get (a + i) = m.get (a + i) :=
  ((Mem.read_eq_some_iff m' a 16 b).1 h' i hi).trans ((Mem.read_eq_some_iff m a 16 b).1 h i hi).symm

/-- A completion that stores in the lanes what they held leaves every byte as it was. -/
theorem State.PutsLanesThrough.get_eq (h : s.PutsLanesThrough t n id) (a : Nat) : t.mem.get a = s.mem.get a := by
  by_cases ha : within laneBase (16 * slots s.cfg n) a = true
  · rw [within_eq_true] at ha
    obtain ⟨j, i, hi, rfl⟩ : ∃ j i, i < 16 ∧ a = laneBase + 16 * j + i :=
      ⟨(a - laneBase) / 16, (a - laneBase) % 16, by omega, by omega⟩
    obtain ⟨b, hold, hnew⟩ := h.lane j (by omega)
    exact Mem.get_eq_of_readBlock hold hnew hi
  · obtain ⟨-, hframe⟩ := h.completed
    exact hframe a (Bool.eq_false_iff.2 ha)

/-- With ITER = 0 the operation is the identity on the lanes. -/
theorem permLanes_iter_zero (h : permLanes bank f n s = .next t) (hiter : s.iter = 0) :
    (∀ a, t.mem.get a = s.mem.get a) ∧ t.done = true := by
  obtain ⟨ks, -, hput⟩ := permLanes_eq_next h
  obtain ⟨hstate, -⟩ := hput.completed
  rw [hiter] at hput
  exact ⟨hput.get_eq, by rw [hstate]⟩

end

/-! ## What a completion leaves of the operands -/

/-- A completion that stores in the lanes leaves KS_INV as it was. -/
theorem State.CompletedFrom.ksInv_eq {s t : State} {k : Nat} (h : t.CompletedFrom s (within laneBase k)) :
    t.ksInv = s.ksInv := by
  obtain ⟨-, hframe⟩ := h
  refine Mem.read_congr fun i hi => hframe _ (within_eq_false.2 (.inl ?_))
  show 0x200 + i < 0x500
  omega

/-- A completion leaves the configuration and ITER as they were. -/
theorem State.CompletedFrom.cfg_iter {s t : State} {p : Nat → Bool} (h : t.CompletedFrom s p) :
    t.cfg = s.cfg ∧ t.iter = s.iter := by
  obtain ⟨hstate, -⟩ := h
  rw [hstate]
  exact ⟨rfl, rfl⟩

/-! ## PERM_FWD and PERM_INV -/

/-- Settles O12: the forward bank and Fwd in the operation on the lanes. -/
theorem permFwdCompletes : Obligations.PermFwdCompletes := by
  unfold Obligations.PermFwdCompletes
  intro s n ks b hks hb
  rw [exec_permFwd]
  exact permLanes_completes hks hb

/-- Settles O13: the inverse bank and Inv in the operation on the lanes. -/
theorem permInvCompletes : Obligations.PermInvCompletes := by
  unfold Obligations.PermInvCompletes
  intro s n ks b hks hb
  rw [exec_permInv]
  exact permLanes_completes hks hb

/-- Settles O25: either command gives a lane a value in which neither the count nor the variant occurs. -/
theorem permWidthIndependent : Obligations.PermWidthIndependent := by
  unfold Obligations.PermWidthIndependent
  intro s s' t t' n n' j _ _ hj hj' hfwd hinv hiter hlane
  simp only [exec_permFwd, exec_permInv]
  exact ⟨fun hks => permLanes_lane_eq hks hfwd hiter hlane hj hj', fun hks => permLanes_lane_eq hks hinv hiter hlane hj hj'⟩

/-- Settles O26: PERM_FWD leaves KS_INV and ITER as they were, and the schedules of one identifier undo each other. -/
theorem permRoundTrip : Obligations.PermRoundTrip := by
  unfold Obligations.PermRoundTrip
  intro s n id b hfwd hinv hb
  obtain ⟨t, hst, hlane, hcomp⟩ := permFwdCompletes s n _ b hfwd hb
  obtain ⟨hcfg, hiter⟩ := hcomp.cfg_iter
  rw [← hcfg] at hlane
  obtain ⟨u, htu, hlane', -⟩ := permInvCompletes t n _ _ (hcomp.ksInv_eq.trans hinv) hlane
  rw [hcfg, hiter] at hlane'
  refine ⟨t, u, hst, htu, fun j hj => ?_⟩
  rw [hlane' j hj, matchingSchedulesInvert]

/-- Settles O53: the zeroth iterate of either permutation is the identity. -/
theorem permWithIterZeroIsIdentity : Obligations.PermWithIterZeroIsIdentity := by
  unfold Obligations.PermWithIterZeroIsIdentity
  intro s t n hiter
  rw [exec_permFwd, exec_permInv]
  rintro (h | h)
  · exact permLanes_iter_zero h hiter
  · exact permLanes_iter_zero h hiter

end Sys2Proof.Machine
end

section
/-! Proof-of-Replication (43_por.md): the feedback of one pass (R230, R232), Encode and Decode as iterates of a pass that
seeds itself (R231, R234), and POR_ENC and POR_DEC as one operation on the pieces (R236 to R239). -/

namespace Sys2Proof.Machine

/-! ## One pass, block by block (R230, R232) -/

/-- R230. By induction on the Blocks: the tail is a pass seeded with the block just produced. -/
theorem getD_encPass (f : Block → Block) (v : Block) (x : Piece) {i : Nat} (hi : i < x.length) :
    (encPass f v x).getD i 0 = f (x.getD i 0 ^^^ if i = 0 then v else (encPass f v x).getD (i - 1) 0) := by
  induction x generalizing v i with
  | nil => simp at hi
  | cons b x ih =>
    cases i with
    | zero => rfl
    | succ i =>
      have htail := ih (f (b ^^^ v)) (Nat.lt_of_succ_lt_succ hi)
      cases i with
      | zero => exact htail
      | succ i => exact htail

/-- R232. By induction on the Blocks: the tail is a pass seeded with the Block of the input before it. -/
theorem getD_decPass (g : Block → Block) (v : Block) (y : Piece) {i : Nat} (hi : i < y.length) :
    (decPass g v y).getD i 0 = g (y.getD i 0) ^^^ if i = 0 then v else y.getD (i - 1) 0 := by
  induction y generalizing v i with
  | nil => simp at hi
  | cons b y ih =>
    cases i with
    | zero => rfl
    | succ i =>
      have htail := ih b (Nat.lt_of_succ_lt_succ hi)
      cases i with
      | zero => exact htail
      | succ i => exact htail

/-- Settles O27: `getD_encPass` at f = Fwd^A. -/
theorem encPassFeedback : Obligations.EncPassFeedback := by
  unfold Obligations.EncPassFeedback
  intro p ks a x iv
  exact ⟨length_encPass _ iv x, fun i hi => getD_encPass _ iv x hi⟩

/-- Settles O28: `getD_decPass` at g = Inv^A. -/
theorem decPassFeedback : Obligations.DecPassFeedback := by
  unfold Obligations.DecPassFeedback
  intro p ks a y iv
  exact ⟨length_decPass _ iv y, fun i hi => getD_decPass _ iv y hi⟩

/-- Of zero Blocks, block i is `f` applied i + 1 times to the seed, for it is `f` of the feedback alone. -/
theorem getD_encPass_zeros (f : Block → Block) (v : Block) {n i : Nat} (hi : i < n) :
    (encPass f v (List.replicate n 0)).getD i 0 = f^[i + 1] v := by
  induction i with
  | zero => rw [getD_encPass f v _ (by simpa using hi)]; simp [hi]
  | succ i ih =>
    rw [getD_encPass f v _ (by simpa using hi), if_neg i.succ_ne_zero, Nat.add_sub_cancel, ih (by omega),
      Function.iterate_succ_apply' f (i + 1)]
    simp [hi]

/-- Settles O31: the one pass of Encode on the zero piece, with f = Fwd^A. -/
theorem zeroPieceEncodesToTheChain : Obligations.ZeroPieceEncodesToTheChain := by
  unfold Obligations.ZeroPieceEncodesToTheChain
  intro p ks a iv i hi
  calc (porEncode (fwdIter p ks a) 1 iv (List.replicate 256 0)).getD i 0
      = (fwdIter p ks a)^[i + 1] iv := getD_encPass_zeros _ iv hi
    _ = fwdIter p ks (a * (i + 1)) iv := congrFun (Function.iterate_mul (permFwdBlock p ks) a (i + 1)).symm iv

/-! ## The last Block and the seed recovered from it (R233) -/

theorem lastBlock_eq_getD (x : Piece) : lastBlock x = x.getD (x.length - 1) 0 := by
  rw [lastBlock, List.getLastD_eq_getLast?, List.getLast?_eq_getElem?, List.getD_eq_getElem?_getD]

theorem recoverSeed_eq_getD (g : Block → Block) {y : Piece} (hy : 2 ≤ y.length) :
    recoverSeed g y = g (y.getD (y.length - 1) 0) ^^^ y.getD (y.length - 2) 0 := by
  have hdrop : y.dropLast.getD (y.length - 2) 0 = y.getD (y.length - 2) 0 := by
    rw [List.getD_eq_getElem?_getD, List.getD_eq_getElem?_getD, List.getElem?_dropLast, if_pos (by omega)]
  rw [recoverSeed, lastBlock_eq_getD, lastBlock_eq_getD, List.length_dropLast, Nat.sub_sub, hdrop]

/-- The seed recovered is the last Block of the inverse pass, which does not use that pass's own seed. -/
theorem recoverSeed_eq_lastBlock_decPass (g : Block → Block) (v : Block) {y : Piece} (hy : 2 ≤ y.length) :
    recoverSeed g y = lastBlock (decPass g v y) := by
  rw [recoverSeed_eq_getD g hy, lastBlock_eq_getD, length_decPass, getD_decPass g v y (by omega), if_neg (by omega),
    Nat.sub_sub]

/-- Settles O29: the two lemmas above, for 256 Blocks. -/
theorem recoverSeedRule : Obligations.RecoverSeedRule := by
  unfold Obligations.RecoverSeedRule
  intro p ks a y v hy
  have hlong : 2 ≤ y.length := by omega
  constructor
  · rw [recoverSeed_eq_getD _ hlong, hy]
  · rw [recoverSeed_eq_lastBlock_decPass _ v hlong, lastBlock_eq_getD, length_decPass, hy]

/-! ## Encode and Decode by their passes (R231, R234) -/

/-- An EncPass after the first: its seed is the last Block of what it is given. -/
def chainPass (f : Block → Block) (x : Piece) : Piece := encPass f (lastBlock x) x

/-- A DecPass before the last: its seed is recovered from what it is given. -/
def undoPass (g : Block → Block) (y : Piece) : Piece := decPass g (recoverSeed g y) y

theorem length_chainPass (f : Block → Block) (x : Piece) : (chainPass f x).length = x.length := length_encPass _ _ x

theorem length_undoPass (g : Block → Block) (y : Piece) : (undoPass g y).length = y.length := length_decPass _ _ y

theorem length_iterate_undoPass (g : Block → Block) (b : Nat) (y : Piece) : ((undoPass g)^[b] y).length = y.length :=
  congrFun (Function.iterate_invariant (g := List.length) (funext (length_undoPass g)) b) y

/-- R231: the first pass takes the caller's IV, and each later one seeds itself. -/
theorem porEncode_succ (f : Block → Block) (b : Nat) (v : Block) (x : Piece) :
    porEncode f (b + 1) v x = (chainPass f)^[b] (encPass f v x) := by
  induction b generalizing v x with
  | zero => rfl
  | succ b ih => rw [porEncode, ih, Function.iterate_succ_apply, chainPass]

/-- R234: each pass but the last recovers its seed, and the last takes the caller's IV. -/
theorem porDecode_succ (g : Block → Block) (b : Nat) (iv : Block) (y : Piece) :
    porDecode g (b + 1) iv y = decPass g iv ((undoPass g)^[b] y) := by
  induction b generalizing y with
  | zero => rfl
  | succ b ih => rw [porDecode, ih, Function.iterate_succ_apply, undoPass]

/-- Settles O30: the two decodes undo all passes but the last in the same way, and in the last the IV enters block 0
only. -/
theorem wrongIvChangesBlockZeroOnly : Obligations.WrongIvChangesBlockZeroOnly := by
  unfold Obligations.WrongIvChangesBlockZeroOnly
  intro g b ivTrue ivUsed c hb hc
  obtain ⟨b, rfl⟩ := Nat.exists_eq_add_of_le' hb
  have hlen : ((undoPass g)^[b] c).length = 256 := (length_iterate_undoPass g b c).trans hc
  rw [porDecode_succ, porDecode_succ]
  constructor
  · rw [getD_decPass g ivUsed _ (by omega), getD_decPass g ivTrue _ (by omega), if_pos rfl, if_pos rfl,
      BitVec.xor_assoc (g _), BitVec.xor_self, BitVec.xor_zero]
  · intro i hi hpos
    rw [getD_decPass g ivUsed _ (by omega), getD_decPass g ivTrue _ (by omega), if_neg hpos, if_neg hpos]

/-! ### Where `g` undoes `f`, a pass undoes a pass, and Decode undoes Encode (R238) -/

theorem decPass_encPass {f g : Block → Block} (h : Function.LeftInverse g f) (v : Block) (x : Piece) :
    decPass g v (encPass f v x) = x := by
  induction x generalizing v with
  | nil => rfl
  | cons b x ih => rw [encPass, decPass, ih, h, BitVec.xor_assoc, BitVec.xor_self, BitVec.xor_zero]

/-- The seed recovered is the one the pass was given, because that is the last Block of what the pass was made from. -/
theorem undoPass_chainPass {f g : Block → Block} (h : Function.LeftInverse g f) {x : Piece} (hx : 2 ≤ x.length) :
    undoPass g (chainPass f x) = x := by
  have hseed : recoverSeed g (chainPass f x) = lastBlock x := by
    rw [recoverSeed_eq_lastBlock_decPass g (lastBlock x) (hx.trans_eq (length_chainPass f x).symm), chainPass,
      decPass_encPass h]
  rw [undoPass, hseed, chainPass, decPass_encPass h]

theorem iterate_undoPass_chainPass {f g : Block → Block} (h : Function.LeftInverse g f) (b : Nat) {x : Piece}
    (hx : 2 ≤ x.length) : (undoPass g)^[b] ((chainPass f)^[b] x) = x := by
  induction b generalizing x with
  | zero => rfl
  | succ b ih =>
    rw [Function.iterate_succ_apply' (undoPass g), Function.iterate_succ_apply,
      ih (hx.trans_eq (length_chainPass f x).symm), undoPass_chainPass h hx]

theorem porDecode_porEncode {f g : Block → Block} (h : Function.LeftInverse g f) (b : Nat) (iv : Block) {x : Piece}
    (hx : 2 ≤ x.length) : porDecode g b iv (porEncode f b iv x) = x := by
  cases b with
  | zero => rfl
  | succ b =>
    rw [porEncode_succ, porDecode_succ, iterate_undoPass_chainPass h b (hx.trans_eq (length_encPass f iv x).symm),
      decPass_encPass h]

/-! ### A sequence of pieces that follows the passes -/

theorem eq_iterate_of_steps {x : Nat → Piece} {pass : Piece → Piece} {b : Nat} (h : ∀ q < b, x (q + 1) = pass (x q)) :
    x b = pass^[b] (x 0) := by
  induction b with
  | zero => rfl
  | succ b ih => rw [h b b.lt_succ_self, Function.iterate_succ_apply', ih fun q hq => h q (by omega)]

theorem length_of_steps {x : Nat → Piece} {b k : Nat} (h0 : (x 0).length = k)
    (h : ∀ q < b, (x (q + 1)).length = (x q).length) {q : Nat} (hq : q ≤ b) : (x q).length = k := by
  induction q with
  | zero => exact h0
  | succ q ih => rw [h q hq, ih (by omega)]

/-- R231: pieces that follow the passes of Encode end in its result. -/
theorem eq_porEncode_of_passes {f : Block → Block} {iv : Block} {b : Nat} {x : Nat → Piece} (h0 : (x 0).length = 256)
    (h : ∀ q < b, x (q + 1) = encPass f (if q = 0 then iv else (x q).getD 255 0) (x q)) :
    x b = porEncode f b iv (x 0) := by
  cases b with
  | zero => rfl
  | succ b =>
    have hfirst : x 1 = encPass f iv (x 0) := h 0 b.succ_pos
    have hlater : ∀ q < b, x (q + 1 + 1) = chainPass f (x (q + 1)) := fun q hq => by
      have hlen : (x (q + 1)).length = 256 :=
        length_of_steps h0 (fun r hr => by rw [h r hr, length_encPass]) (by omega : q + 1 ≤ b + 1)
      rw [h (q + 1) (by omega), if_neg q.succ_ne_zero, chainPass, lastBlock_eq_getD, hlen]
    rw [porEncode_succ, ← hfirst]
    exact eq_iterate_of_steps (x := fun q => x (q + 1)) hlater

/-- R234: pieces that follow the passes of Decode end in its result. -/
theorem eq_porDecode_of_passes {g : Block → Block} {iv : Block} {b : Nat} {x : Nat → Piece} (h0 : (x 0).length = 256)
    (h : ∀ q < b, x (q + 1) =
      decPass g (if q + 1 = b then iv else g ((x q).getD 255 0) ^^^ (x q).getD 254 0) (x q)) :
    x b = porDecode g b iv (x 0) := by
  cases b with
  | zero => rfl
  | succ b =>
    have hlast : x (b + 1) = decPass g iv (x b) := by rw [h b b.lt_succ_self, if_pos rfl]
    have hearlier : ∀ q < b, x (q + 1) = undoPass g (x q) := fun q hq => by
      have hlen : (x q).length = 256 :=
        length_of_steps h0 (fun r hr => by rw [h r hr, length_decPass]) (by omega : q ≤ b + 1)
      rw [h q (by omega), if_neg (by omega), undoPass, recoverSeed_eq_getD g (by omega), hlen]
    rw [porDecode_succ, hlast, eq_iterate_of_steps hearlier]

/-! ## One operation for both commands (R236, R237) -/

/-- PIECE[j] <- f(ks) of IV[j] and PIECE[j] for each piece a count `n` names, with `bank` holding the schedule `ks`. -/
def porPieces (bank : Option KeySchedule) (f : KeySchedule → Block → Piece → Piece) (n : BitVec 4) (s : State) :
    Host.Outcome State Fault Refusal :=
  needs bank fun ks => needs (s.ivs n) fun vs => needs (s.pieces n) fun ps =>
    .next (s.setPieces (List.zipWith (f ks) vs ps)).finish

/-- Encode under the permutation, ITER and BREADTH of a state. -/
def State.encodePiece (s : State) (ks : KeySchedule) : Block → Piece → Piece :=
  porEncode (permFwdBlock s.cfg.cipher ks)^[s.iter.toNat] s.breadth.toNat

/-- Decode under the permutation, ITER and BREADTH of a state. -/
def State.decodePiece (s : State) (ks : KeySchedule) : Block → Piece → Piece :=
  porDecode (permInvBlock s.cfg.cipher ks)^[s.iter.toNat] s.breadth.toNat

theorem exec_porEnc (n : BitVec 4) (s : State) : exec (.porEnc n) s = porPieces s.ksFwd s.encodePiece n s := rfl

theorem exec_porDec (n : BitVec 4) (s : State) : exec (.porDec n) s = porPieces s.ksInv s.decodePiece n s := rfl

theorem State.length_encodePiece (s : State) (ks : KeySchedule) (v : Block) (x : Piece) :
    (s.encodePiece ks v x).length = x.length := length_porEncode _ _ v x

theorem State.length_decodePiece (s : State) (ks : KeySchedule) (v : Block) (x : Piece) :
    (s.decodePiece ks v x).length = x.length := length_porDecode _ _ v x

/-! ### The IVs and pieces a count names, together and one by one (R46, R48) -/

theorem ivs_eq_some_iff (s : State) (n : BitVec 4) (vs : List Block) :
    s.ivs n = some vs ↔ vs.length = slots s.cfg n ∧ ∀ j (hj : j < vs.length), s.iv j = some vs[j] :=
  Mem.readBlocks_eq_some_iff _ _ _ _

theorem pieces_eq_some_iff (s : State) (n : BitVec 4) (ps : List Piece) :
    s.pieces n = some ps ↔ ps.length = slots s.cfg n ∧ ∀ j (hj : j < ps.length), s.piece j = some ps[j] :=
  Mem.readPieces_eq_some_iff _ _ _ _

theorem ivs_of_iv {s : State} {n : BitVec 4} {v : Nat → Block} (hv : ∀ j < slots s.cfg n, s.iv j = some (v j)) :
    s.ivs n = some ((List.range (slots s.cfg n)).map v) :=
  (ivs_eq_some_iff _ _ _).2 ⟨by simp, fun j hj => by simpa using hv j (by simpa using hj)⟩

theorem pieces_of_piece {s : State} {n : BitVec 4} {p : Nat → Piece}
    (hp : ∀ j < slots s.cfg n, s.piece j = some (p j)) : s.pieces n = some ((List.range (slots s.cfg n)).map p) :=
  (pieces_eq_some_iff _ _ _).2 ⟨by simp, fun j hj => by simpa using hp j (by simpa using hj)⟩

theorem length_of_piece {s : State} {j : Nat} {p : Piece} (h : s.piece j = some p) : p.length = 256 :=
  Mem.readBlocks_length h

theorem piece_finish_setPieces (s : State) {ps : List Piece} (hps : ∀ p ∈ ps, p.length = 256) {j : Nat}
    (hj : j < ps.length) : (s.setPieces ps).finish.piece j = some ps[j] :=
  Mem.readPiece_writePieces s.mem pieceBase ps hps j hj

/-! ### What the operation does -/

/-- `t` is a completion of `s` that has put each piece a count `n` names, with its IV, through `g` and stored nothing
else. -/
structure State.PutsPiecesThrough (s t : State) (n : BitVec 4) (g : Block → Piece → Piece) : Prop where
  /-- The pieces alone are stored. -/
  completed : t.CompletedFrom s (within pieceBase (4096 * slots s.cfg n))
  /-- Each IV and piece was defined, and the piece holds its image. -/
  piece : ∀ j < slots s.cfg n, ∃ v p, s.iv j = some v ∧ s.piece j = some p ∧ t.piece j = some (g v p)

section
variable {bank : Option KeySchedule} {f : KeySchedule → Block → Piece → Piece} {n : BitVec 4} {s t : State}

/-- All that the operation can do when it answers a next state. -/
theorem porPieces_eq_next (hf : ∀ ks v x, (f ks v x).length = x.length) (h : porPieces bank f n s = .next t) :
    ∃ ks, bank = some ks ∧ s.PutsPiecesThrough t n (f ks) := by
  obtain ⟨ks, hks, h⟩ := needs_eq_next h
  obtain ⟨vs, hvs, h⟩ := needs_eq_next h
  obtain ⟨ps, hps, h⟩ := needs_eq_next h
  obtain rfl := Host.Outcome.next.inj h
  obtain ⟨hvlen, hiv⟩ := (ivs_eq_some_iff _ _ _).1 hvs
  obtain ⟨hplen, hpiece⟩ := (pieces_eq_some_iff _ _ _).1 hps
  have h256 : ∀ q ∈ List.zipWith (f ks) vs ps, q.length = 256 := fun q hq => by
    obtain ⟨j, hj, rfl⟩ := List.getElem_of_mem hq
    rw [List.getElem_zipWith, hf, length_of_piece (hpiece j (by rw [List.length_zipWith] at hj; omega))]
  refine ⟨ks, hks, State.CompletesWithin.completedFrom ⟨_, pieces_storesWithin hvs hps (hf ks), rfl⟩, fun j hj => ?_⟩
  refine ⟨vs[j], ps[j], hiv j (by omega), hpiece j (by omega), ?_⟩
  rw [piece_finish_setPieces s h256 (by rw [List.length_zipWith]; omega), List.getElem_zipWith]

/-- The operation completes when the bank, the IVs and the pieces are defined. -/
theorem porPieces_completes (hf : ∀ ks v x, (f ks v x).length = x.length) {ks : KeySchedule} {v : Nat → Block}
    {p : Nat → Piece} (hks : bank = some ks)
    (hvp : ∀ j < slots s.cfg n, s.iv j = some (v j) ∧ s.piece j = some (p j)) :
    ∃ t, porPieces bank f n s = .next t ∧ (∀ j < slots s.cfg n, t.piece j = some (f ks (v j) (p j))) ∧
      t.CompletedFrom s (within pieceBase (4096 * slots s.cfg n)) := by
  obtain ⟨t, hnext⟩ : ∃ t, porPieces bank f n s = .next t :=
    ⟨_, by rw [porPieces, hks, ivs_of_iv fun j hj => (hvp j hj).1, pieces_of_piece fun j hj => (hvp j hj).2, needs_some,
      needs_some, needs_some]⟩
  obtain ⟨_, hks', hput⟩ := porPieces_eq_next hf hnext
  obtain rfl := Option.some.inj (hks.symm.trans hks')
  refine ⟨t, hnext, fun j hj => ?_, hput.completed⟩
  obtain ⟨hv, hp⟩ := hvp j hj
  obtain ⟨_, _, hv', hp', hnew⟩ := hput.piece j hj
  rwa [Option.some.inj (hv.symm.trans hv'), Option.some.inj (hp.symm.trans hp')]

/-- A piece's result depends on the bank, the function, the IV and the piece alone (R239). -/
theorem porPieces_piece_eq (hf : ∀ ks v x, (f ks v x).length = x.length) {bank' : Option KeySchedule}
    {f' : KeySchedule → Block → Piece → Piece} {n' : BitVec 4} {s' t' : State} {j : Nat} (hbank : bank = bank')
    (hff' : f = f') (hiv : s.iv j = s'.iv j) (hpiece : s.piece j = s'.piece j) (hj : j < slots s.cfg n)
    (hj' : j < slots s'.cfg n') (h : porPieces bank f n s = .next t) (h' : porPieces bank' f' n' s' = .next t') :
    t.piece j = t'.piece j := by
  subst hbank hff'
  obtain ⟨ks, hks, hput⟩ := porPieces_eq_next hf h
  obtain ⟨ks', hks', hput'⟩ := porPieces_eq_next hf h'
  obtain ⟨v, p, hv, hp, hnew⟩ := hput.piece j hj
  obtain ⟨v', p', hv', hp', hnew'⟩ := hput'.piece j hj'
  obtain rfl : ks = ks' := Option.some.inj (hks.symm.trans hks')
  obtain rfl : v = v' := Option.some.inj (hv.symm.trans (hiv.trans hv'))
  obtain rfl : p = p' := Option.some.inj (hp.symm.trans (hpiece.trans hp'))
  rw [hnew, hnew']

end

/-! ### What a completion leaves of the operands -/

/-- A completion that stores from `base` on leaves the bytes below it as they were. -/
theorem State.CompletedFrom.read_below {s t : State} {base k : Nat} (h : t.CompletedFrom s (within base k)) {a n : Nat}
    (ha : a + n ≤ base) : t.mem.read a n = s.mem.read a n := by
  obtain ⟨-, hframe⟩ := h
  exact Mem.read_congr fun i hi => hframe _ (within_eq_false.2 (.inl (by omega)))

/-- A completion that stores in the pieces leaves KS_INV as it was. -/
theorem State.CompletedFrom.ksInv_of_pieces {s t : State} {k : Nat} (h : t.CompletedFrom s (within pieceBase k)) :
    t.ksInv = s.ksInv := h.read_below (a := ksInvBase) (n := 176) (by decide)

/-- A completion that stores in the pieces leaves the IVs as they were (R242). -/
theorem State.CompletedFrom.iv_of_pieces {s t : State} {k : Nat} (h : t.CompletedFrom s (within pieceBase k)) {j : Nat}
    (hj : j < s.cfg.width) : t.iv j = s.iv j := by
  have hwidth := Config.width_cases s.cfg
  refine h.read_below (a := ivBase + 16 * j) (n := 16) ?_
  show 0x400 + 16 * j + 16 ≤ 0x10000
  omega

theorem State.CompletedFrom.decodePiece_eq {s t : State} {p : Nat → Bool} (h : t.CompletedFrom s p) :
    t.decodePiece = s.decodePiece := by
  obtain ⟨hstate, -⟩ := h
  rw [hstate]
  rfl

/-! ## POR_ENC and POR_DEC -/

/-- Settles O14: the forward bank and Encode in the operation on the pieces, with Encode by its passes. -/
theorem porEncCompletes : Obligations.PorEncCompletes := by
  unfold Obligations.PorEncCompletes
  intro s n ks v p hks hvp
  obtain ⟨t, hnext, hpiece, hcomp⟩ := porPieces_completes s.length_encodePiece hks hvp
  refine ⟨t, hnext, hpiece, fun j hj x hx0 hx => ?_, hcomp⟩
  obtain ⟨-, hold⟩ := hvp j hj
  rw [eq_porEncode_of_passes (by rw [hx0, length_of_piece hold]) hx, hx0]
  exact hpiece j hj

/-- Settles O15: the inverse bank and Decode in the operation on the pieces, with Decode by its passes. -/
theorem porDecCompletes : Obligations.PorDecCompletes := by
  unfold Obligations.PorDecCompletes
  intro s n ks v p hks hvp
  obtain ⟨t, hnext, hpiece, hcomp⟩ := porPieces_completes s.length_decodePiece hks hvp
  refine ⟨t, hnext, hpiece, fun j hj x hx0 hx => ?_, hcomp⟩
  obtain ⟨-, hold⟩ := hvp j hj
  rw [eq_porDecode_of_passes (by rw [hx0, length_of_piece hold]) hx, hx0]
  exact hpiece j hj

/-- Settles O33: either command gives a piece a value in which neither the count nor the variant occurs. -/
theorem porWidthIndependent : Obligations.PorWidthIndependent := by
  unfold Obligations.PorWidthIndependent
  intro s s' t t' n n' j _ _ hj hj' hfwd hinv hiter hbreadth hiv hpiece
  have henc : s.encodePiece = s'.encodePiece := by unfold State.encodePiece; rw [hfwd, hiter, hbreadth]
  have hdec : s.decodePiece = s'.decodePiece := by unfold State.decodePiece; rw [hinv, hiter, hbreadth]
  simp only [exec_porEnc, exec_porDec]
  exact ⟨fun hks => porPieces_piece_eq s.length_encodePiece hks henc hiv hpiece hj hj',
    fun hks => porPieces_piece_eq s.length_decodePiece hks hdec hiv hpiece hj hj'⟩

/-- Settles O32: POR_ENC leaves KS_INV, the IVs, ITER and BREADTH as they were, and under the schedules of one identifier
Decode undoes Encode. -/
theorem porRoundTrip : Obligations.PorRoundTrip := by
  unfold Obligations.PorRoundTrip
  intro s n id v p hfwd hinv _ _ hvp
  obtain ⟨t, hst, hpiece, hcomp⟩ := porPieces_completes s.length_encodePiece hfwd hvp
  obtain ⟨hcfg, -⟩ := hcomp.cfg_iter
  have hvp' : ∀ j < slots t.cfg n,
      t.iv j = some (v j) ∧ t.piece j = some (s.encodePiece (keyExpand s.cfg.cipher id).1 (v j) (p j)) := by
    rw [hcfg]
    intro j hj
    obtain ⟨hv, -⟩ := hvp j hj
    exact ⟨(hcomp.iv_of_pieces (hj.trans_le (slots_le_width _ _))).trans hv, hpiece j hj⟩
  obtain ⟨u, htu, hback, -⟩ := porPieces_completes t.length_decodePiece (hcomp.ksInv_of_pieces.trans hinv) hvp'
  rw [hcfg, hcomp.decodePiece_eq] at hback
  refine ⟨t, u, hst, htu, fun j hj => ?_⟩
  obtain ⟨-, hold⟩ := hvp j hj
  have hlong : 2 ≤ (p j).length := by rw [length_of_piece hold]; decide
  rw [hback j hj, State.decodePiece, State.encodePiece,
    porDecode_porEncode (fun b => matchingSchedulesInvert s.cfg.cipher id b s.iter.toNat) _ _ hlong]

end Sys2Proof.Machine
end

section
/-! Proof-of-Time (44_pot.md): the chain in closed form (R260), POT_PROVE and POT_VERIFY over SEED and the checkpoints as one
sequence of points (R263 to R266), validity and soundness of a proof (R267), and split verification (R268). -/

namespace Sys2Proof.Machine

/-! ## The chain and its intervals over any block function (R260, R263) -/

/-- Checkpoint k is k + 1 intervals past the seed. -/
theorem getElem_potChain (f : Block → Block) (c : Block) (v : Nat) {k : Nat} (hk : k < (potChain f c v).length) :
    (potChain f c v)[k] = f^[k + 1] c := by
  induction v generalizing c k with
  | zero => exact absurd hk (Nat.not_lt_zero k)
  | succ v ih =>
    cases k with
    | zero => rfl
    | succ k => exact ih (f c) (Nat.lt_of_succ_lt_succ hk)

theorem getD_potChain (f : Block → Block) (c : Block) {v k : Nat} (hk : k < v) :
    (potChain f c v).getD k 0 = f^[k + 1] c := by
  rw [← List.getElem_eq_getD (h := by rwa [length_potChain]), getElem_potChain]

/-- `g` takes each of the points first + 1 .. last + 1 to the one before it: the intervals first .. last match (R263). -/
abbrev IntervalsMatch (g : Block → Block) (p : Nat → Block) (first last : Nat) : Prop :=
  ∀ k < last + 1, first ≤ k → g (p (k + 1)) = p k

/-- The AND of the interval checks along `n` consecutive points after point `a` (R264). -/
theorem intervalsOk_iff (g : Block → Block) (p : Nat → Block) (a n : Nat) :
    intervalsOk g (p a) ((List.range' a n).map fun k => p (k + 1)) = true ↔
      ∀ k < a + n, a ≤ k → g (p (k + 1)) = p k := by
  induction n generalizing a with
  | zero => exact iff_of_true rfl fun k hk hak => by omega
  | succ n ih =>
    rw [List.range'_succ, List.map_cons, intervalsOk, Bool.and_eq_true, decide_eq_true_eq, ih]
    constructor
    · rintro ⟨hfirst, hrest⟩ k hk hak
      rcases hak.eq_or_lt with rfl | hlt
      · exact hfirst
      · exact hrest k (by omega) hlt
    · exact fun h => ⟨h a (by omega) le_rfl, fun k hk hak => h k (by omega) (by omega)⟩

/-- Consecutive ranges of intervals are one range (R268). -/
theorem intervalsMatch_split (g : Block → Block) (p : Nat → Block) {first m last : Nat} (hfirst : first ≤ m)
    (hlast : m + 1 ≤ last) :
    IntervalsMatch g p first last ↔ IntervalsMatch g p first m ∧ IntervalsMatch g p (m + 1) last := by
  constructor
  · exact fun h => ⟨fun k hk => h k (by omega), fun k hk hmk => h k hk (by omega)⟩
  · rintro ⟨hlow, hhigh⟩ k hk hfk
    rcases Nat.lt_or_ge k (m + 1) with hkm | hkm
    · exact hlow k hkm hfk
    · exact hhigh k hk hkm

/-- One point of a chain replaced by another Block breaks the interval that ends there, for `g` is injective, and the one
that starts there (R267). -/
theorem not_intervalsMatch_update {g : Block → Block} {p : Nat → Block} {first last k : Nat} {c : Block}
    (hg : Function.Injective g) (hp : ∀ j, g (p (j + 1)) = p j) (hc : c ≠ p (k + 1))
    (hk : (first ≤ k ∧ k ≤ last) ∨ (first ≤ k + 1 ∧ k + 1 ≤ last)) :
    ¬ IntervalsMatch g (Function.update p (k + 1) c) first last := by
  intro h
  rcases hk with ⟨hfk, hkl⟩ | ⟨hfk, hkl⟩
  · have hend := h k (by omega) hfk
    rw [Function.update_self, Function.update_of_ne (by omega), ← hp k] at hend
    exact hc (hg hend)
  · have hstart := h (k + 1) (by omega) hfk
    rw [Function.update_self, Function.update_of_ne (by omega), hp] at hstart
    exact hc hstart.symm

/-! ## The schedules of one identifier (R171, R191) -/

/-- Inv under an identifier's schedule is injective: Fwd, which it undoes, reaches every Block. -/
theorem permInvBlock_injective (p : CipherSel) (id : Block) :
    Function.Injective (permInvBlock p (keyExpand p id).2) := by
  have hundo : Function.LeftInverse (permInvBlock p (keyExpand p id).2) (permFwdBlock p (keyExpand p id).1) :=
    permInvBlock_permFwdBlock p id
  exact (hundo.rightInverse_of_surjective (permFwdBlock_bijective p _).surjective).injective

/-- Fwd over one interval of a proof of `v` checkpoints (R262). -/
def State.fwdInterval (s : State) (v : BitVec 5) (ks : KeySchedule) : Block → Block :=
  (permFwdBlock s.cfg.cipher ks)^[s.iter.toNat / v.toNat]

/-- Inv over one interval of a proof of `v` checkpoints (R263). -/
def State.invInterval (s : State) (v : BitVec 5) (ks : KeySchedule) : Block → Block :=
  (permInvBlock s.cfg.cipher ks)^[s.iter.toNat / v.toNat]

theorem fwdInterval_iterate (s : State) (v : BitVec 5) (ks : KeySchedule) (k : Nat) :
    (s.fwdInterval v ks)^[k] = (permFwdBlock s.cfg.cipher ks)^[s.iter.toNat / v.toNat * k] :=
  (Function.iterate_mul _ _ _).symm

/-- Under the schedules of one identifier each point of the chain goes back to the one before it. -/
theorem invInterval_chain (s : State) (v : BitVec 5) (id seed : Block) (k : Nat) :
    s.invInterval v (keyExpand s.cfg.cipher id).2 ((s.fwdInterval v (keyExpand s.cfg.cipher id).1)^[k + 1] seed) =
      (s.fwdInterval v (keyExpand s.cfg.cipher id).1)^[k] seed := by
  rw [Function.iterate_succ_apply']
  exact matchingSchedulesInvert s.cfg.cipher id _ _

/-! ## SEED and the checkpoints as one sequence (R260) -/

/-- Point 0 is SEED and point k + 1 is checkpoint k, so that interval k goes from point k to point k + 1. -/
def State.chainPoint (s : State) : Nat → Option Block
  | 0 => s.seed
  | k + 1 => s.checkpoint k

theorem checkpoint_eq_chainPoint (s : State) (k : Nat) : s.checkpoint k = s.chainPoint (k + 1) := rfl

theorem predecessor_eq_chainPoint (s : State) (first : BitVec 4) : s.predecessor first = s.chainPoint first.toNat := by
  unfold State.predecessor
  cases first.toNat with
  | zero => rfl
  | succ k => rfl

theorem checkpoints_eq_some_iff (s : State) (first last : BitVec 4) (cps : List Block) :
    s.checkpoints first last = some cps ↔
      cps.length = last.toNat + 1 - first.toNat ∧
        ∀ j (hj : j < cps.length), s.chainPoint (first.toNat + j + 1) = some cps[j] := by
  refine (Mem.readBlocks_eq_some_iff _ _ _ _).trans (and_congr_right' (forall₂_congr fun j hj => ?_))
  rw [← checkpoint_eq_chainPoint, State.checkpoint, Nat.mul_add, Nat.add_assoc]

/-- The points that intervals `first` .. `last` read are `p first` .. `p (last + 1)` (R266). -/
def State.RangeHolds (s : State) (first last : Nat) (p : Nat → Block) : Prop :=
  ∀ k, first ≤ k → k ≤ last + 1 → s.chainPoint k = some (p k)

theorem State.RangeHolds.checkpoints {s : State} {first last : BitVec 4} {p : Nat → Block}
    (h : s.RangeHolds first.toNat last.toNat p) :
    s.checkpoints first last =
      some ((List.range' first.toNat (last.toNat + 1 - first.toNat)).map fun k => p (k + 1)) := by
  refine (checkpoints_eq_some_iff _ _ _ _).2 ⟨by simp, fun j hj => ?_⟩
  rw [List.length_map, List.length_range'] at hj
  simpa using h (first.toNat + j + 1) (by omega) (by omega)

/-- A range whose operands are defined has points. -/
theorem rangeHolds_of_operands {s : State} {first last : BitVec 4} {prev : Block} {cps : List Block}
    (hprev : s.predecessor first = some prev) (hcps : s.checkpoints first last = some cps) :
    ∃ p, s.RangeHolds first.toNat last.toNat p := by
  rw [predecessor_eq_chainPoint] at hprev
  obtain ⟨hlen, hall⟩ := (checkpoints_eq_some_iff _ _ _ _).1 hcps
  refine ⟨fun k => (s.chainPoint k).getD 0, fun k hfk hkl => ?_⟩
  have hdef : ∃ b, s.chainPoint k = some b := by
    rcases hfk.eq_or_lt with rfl | hlt
    · exact ⟨prev, hprev⟩
    · obtain ⟨j, rfl⟩ : ∃ j, k = first.toNat + j + 1 := ⟨k - first.toNat - 1, by omega⟩
      exact ⟨_, hall j (by omega)⟩
  obtain ⟨b, hb⟩ := hdef
  show s.chainPoint k = some ((s.chainPoint k).getD 0)
  rw [hb, Option.getD_some]

/-! ## POT_PROVE (R265) -/

theorem checkpoint_finish_setCheckpoints (s : State) (cps : List Block) {k : Nat} (hk : k < cps.length) :
    (s.setCheckpoints cps).finish.checkpoint k = some cps[k] :=
  Mem.readBlock_writeBlocks s.mem proofBase cps k hk

/-- A completion that stores in PROOF leaves KS_INV as it was. -/
theorem State.CompletedFrom.ksInv_of_proof {s t : State} {k : Nat} (h : t.CompletedFrom s (within proofBase k)) :
    t.ksInv = s.ksInv := h.read_below (a := ksInvBase) (n := 176) (by decide)

/-- A completion that stores in PROOF leaves SEED as it was. -/
theorem State.CompletedFrom.seed_of_proof {s t : State} {k : Nat} (h : t.CompletedFrom s (within proofBase k)) :
    t.seed = s.seed := h.read_below (a := seedBase) (n := 16) (by decide)

theorem State.CompletedFrom.invInterval_eq {s t : State} {p : Nat → Bool} (h : t.CompletedFrom s p) :
    t.invInterval = s.invInterval := by
  obtain ⟨hcfg, hiter⟩ := h.cfg_iter
  unfold State.invInterval
  rw [hcfg, hiter]

/-- POT_PROVE completes when its operands are defined, and leaves the chain from SEED in SEED and PROOF. -/
theorem exec_potProve_leaves_chain {s : State} {ks : KeySchedule} {seed : Block} (v : BitVec 5) (hks : s.ksFwd = some ks)
    (hseed : s.seed = some seed) :
    ∃ t, exec (.potProve v) s = .next t ∧ (∀ k ≤ v.toNat, t.chainPoint k = some ((s.fwdInterval v ks)^[k] seed)) ∧
      t.CompletedFrom s (within proofBase (16 * v.toNat)) := by
  have hexec : exec (.potProve v) s =
      .next (s.setCheckpoints (potChain (s.fwdInterval v ks) seed v.toNat)).finish := by
    show needs s.ksFwd _ = _
    rw [hks, needs_some, hseed, needs_some]
    rfl
  have hcomp := (execPotProve_completes hexec).completedFrom
  refine ⟨_, hexec, fun k hk => ?_, hcomp⟩
  cases k with
  | zero => exact hcomp.seed_of_proof.trans hseed
  | succ k =>
    rw [← checkpoint_eq_chainPoint, checkpoint_finish_setCheckpoints _ _ (by rwa [length_potChain]), getElem_potChain]

/-! ## POT_VERIFY (R266) -/

/-- POT_VERIFY over a range that holds `p`: VOK says whether its intervals match, and nothing else changes. -/
theorem exec_potVerify_of_rangeHolds {s : State} {v : BitVec 5} {first last : BitVec 4} {ks : KeySchedule}
    {p : Nat → Block} (hle : first.toNat ≤ last.toNat) (hks : s.ksInv = some ks)
    (hp : s.RangeHolds first.toNat last.toNat p) :
    exec (.potVerify v first last) s =
      .next (s.setVok (decide (IntervalsMatch (s.invInterval v ks) p first.toNat last.toNat))).finish := by
  have hprev : s.predecessor first = some (p first.toNat) :=
    (predecessor_eq_chainPoint s first).trans (hp _ le_rfl (by omega))
  have hvok : intervalsOk (s.invInterval v ks) (p first.toNat)
        ((List.range' first.toNat (last.toNat + 1 - first.toNat)).map fun k => p (k + 1)) =
      decide (IntervalsMatch (s.invInterval v ks) p first.toNat last.toNat) := by
    rw [Bool.eq_iff_iff, intervalsOk_iff, decide_eq_true_eq, Nat.add_sub_cancel' (by omega)]
  show needs s.ksInv _ = _
  rw [hks, needs_some, hprev, needs_some, hp.checkpoints, needs_some, ← hvok]
  rfl

/-- A POT_VERIFY that completes had a schedule and a range of points. -/
theorem operands_of_exec_potVerify {s t : State} {v : BitVec 5} {first last : BitVec 4}
    (h : exec (.potVerify v first last) s = .next t) :
    ∃ ks p, s.ksInv = some ks ∧ s.RangeHolds first.toNat last.toNat p := by
  obtain ⟨ks, hks, h⟩ := needs_eq_next h
  obtain ⟨prev, hprev, h⟩ := needs_eq_next h
  obtain ⟨cps, hcps, -⟩ := needs_eq_next h
  obtain ⟨p, hp⟩ := rangeHolds_of_operands hprev hcps
  exact ⟨ks, p, hks, hp⟩

/-- The VOK that a completed POT_VERIFY leaves. -/
theorem vok_of_exec_potVerify {s t : State} {v : BitVec 5} {first last : BitVec 4} {ks : KeySchedule} {p : Nat → Block}
    (h : exec (.potVerify v first last) s = .next t) (hle : first.toNat ≤ last.toNat) (hks : s.ksInv = some ks)
    (hp : s.RangeHolds first.toNat last.toNat p) :
    t.vok = decide (IntervalsMatch (s.invInterval v ks) p first.toNat last.toNat) := by
  obtain rfl := Host.Outcome.next.inj (h.symm.trans (exec_potVerify_of_rangeHolds hle hks hp))
  rfl

/-- A state that holds the bytes a range reads as another does has its KS_INV and its points (R268). -/
theorem operands_of_readSet_agree {s x : State} {v : BitVec 5} {first last : BitVec 4} {p : Nat → Block}
    (h : ∀ a, readSet x.cfg (.potVerify v first last) a = true → x.mem.get a = s.mem.get a)
    (hp : s.RangeHolds first.toNat last.toNat p) :
    x.ksInv = s.ksInv ∧ x.RangeHolds first.toNat last.toNat p := by
  simp only [readSet, Bool.or_eq_true, Bool.and_eq_true, beq_iff_eq, within_eq_true] at h
  refine ⟨Mem.read_congr fun i hi => h _ (.inl (.inl ⟨by omega, by omega⟩)), fun k hfk hkl => ?_⟩
  rw [← hp k hfk hkl]
  cases k with
  | zero =>
    have hzero : first = 0 := BitVec.eq_of_toNat_eq (by rw [Nat.le_zero.1 hfk]; rfl)
    exact Mem.readBlock_congr fun i hi => h _ (.inl (.inr ⟨hzero, by omega, by omega⟩))
  | succ k => exact Mem.readBlock_congr fun i hi => h _ (.inr ⟨by omega, by omega⟩)

/-! ## A checkpoint stored by hand (R47, R267) -/

/-- Checkpoint k <- c. -/
def State.setCheckpoint (s : State) (k : Nat) (c : Block) : State :=
  s.setMem (s.mem.writeBlock (proofBase + 16 * k) c)

/-- The store leaves the windows below PROOF alone. -/
theorem read_below_setCheckpoint (s : State) (k : Nat) (c : Block) {a n : Nat} (h : a + n ≤ proofBase) :
    (s.setCheckpoint k c).mem.read a n = s.mem.read a n :=
  Mem.read_write_disjoint _ _ _ _ _ _ (.inl (by omega))

theorem ksInv_setCheckpoint (s : State) (k : Nat) (c : Block) : (s.setCheckpoint k c).ksInv = s.ksInv :=
  read_below_setCheckpoint s k c (a := ksInvBase) (n := 176) (by decide)

theorem seed_setCheckpoint (s : State) (k : Nat) (c : Block) : (s.setCheckpoint k c).seed = s.seed :=
  read_below_setCheckpoint s k c (a := seedBase) (n := 16) (by decide)

theorem checkpoint_setCheckpoint_same (s : State) (k : Nat) (c : Block) :
    (s.setCheckpoint k c).checkpoint k = some c := by
  rw [State.checkpoint, State.setCheckpoint, State.setMem_mem, Mem.readBlock_writeBlock_same]

theorem checkpoint_setCheckpoint_of_ne (s : State) {j k : Nat} (c : Block) (h : j ≠ k) :
    (s.setCheckpoint k c).checkpoint j = s.checkpoint j :=
  Mem.read_write_disjoint _ _ _ _ _ _ (by omega)

theorem chainPoint_setCheckpoint_of_ne (s : State) {j k : Nat} (c : Block) (h : j ≠ k + 1) :
    (s.setCheckpoint k c).chainPoint j = s.chainPoint j := by
  cases j with
  | zero => exact seed_setCheckpoint s k c
  | succ j => exact checkpoint_setCheckpoint_of_ne s c (by omega)

/-- Storing checkpoint k updates point k + 1 of a range. -/
theorem State.RangeHolds.setCheckpoint {s : State} {first last : Nat} {p : Nat → Block} (h : s.RangeHolds first last p)
    (k : Nat) (c : Block) : (s.setCheckpoint k c).RangeHolds first last (Function.update p (k + 1) c) := by
  intro j hfj hjl
  by_cases hjk : j = k + 1
  · rw [hjk, Function.update_self, ← checkpoint_eq_chainPoint, checkpoint_setCheckpoint_same]
  · rw [chainPoint_setCheckpoint_of_ne _ _ hjk, Function.update_of_ne hjk, h j hfj hjl]

/-! ## The obligations of Proof-of-Time -/

theorem potVerify_wellFormed_range {v : BitVec 5} {first last : BitVec 4}
    (h : (Instr.potVerify v first last).wellFormed = true) : first.toNat ≤ last.toNat ∧ last.toNat + 1 ≤ v.toNat := by
  simp only [Instr.wellFormed, Bool.and_eq_true, decide_eq_true_eq] at h
  obtain ⟨⟨-, hle⟩, hlt⟩ := h
  exact ⟨hle, hlt⟩

/-- Settles O34: an iterate of an iterate is an iterate. -/
theorem checkpointChain : Obligations.CheckpointChain := by
  unfold Obligations.CheckpointChain
  intro p ks seed v inner
  refine ⟨length_potChain _ _ _, fun k hk => ?_⟩
  have hclosed : (fwdIter p ks inner)^[k + 1] seed = fwdIter p ks (inner * (k + 1)) seed :=
    (congrFun (Function.iterate_mul (permFwdBlock p ks) inner (k + 1)) seed).symm
  rw [getD_potChain _ _ hk]
  refine ⟨?_, hclosed⟩
  cases k with
  | zero => rfl
  | succ k =>
    rw [if_neg k.succ_ne_zero, Nat.add_sub_cancel, getD_potChain _ _ (by omega), Function.iterate_succ_apply']

/-- Settles O16: checkpoint k is point k + 1 of the chain that the completion leaves. -/
theorem potProveCompletes : Obligations.PotProveCompletes := by
  unfold Obligations.PotProveCompletes
  intro s v ks seed hks hseed
  obtain ⟨t, hnext, hpoint, hcomp⟩ := exec_potProve_leaves_chain v hks hseed
  refine ⟨t, hnext, fun k hk => ?_, hcomp⟩
  rw [checkpoint_eq_chainPoint, hpoint (k + 1) hk, fwdInterval_iterate]

/-- Settles O17: the range holds `p`. -/
theorem potVerifyCompletes : Obligations.PotVerifyCompletes := by
  unfold Obligations.PotVerifyCompletes
  intro s v first last ks p hle hks hseed hcp
  have hp : s.RangeHolds first.toNat last.toNat p := fun k hfk hkl => by
    cases k with
    | zero => exact hseed (Nat.le_zero.1 hfk)
    | succ k => exact hcp k (by omega) (by omega)
  exact exec_potVerify_of_rangeHolds hle hks hp

/-- Settles O35: the chain goes back interval by interval, whichever of them a range names. -/
theorem provedProofVerifies : Obligations.ProvedProofVerifies := by
  unfold Obligations.ProvedProofVerifies
  intro s v first last id seed hfwd hinv hseed hwf
  obtain ⟨hle, hlt⟩ := potVerify_wellFormed_range hwf
  obtain ⟨t, hst, hpoint, hcomp⟩ := exec_potProve_leaves_chain v hfwd hseed
  refine ⟨t, _, hst, exec_potVerify_of_rangeHolds hle (hcomp.ksInv_of_proof.trans hinv)
    fun k _ hk => hpoint k (by omega), ?_⟩
  rw [State.finish_vok, State.setVok_vok, decide_eq_true_eq, hcomp.invInterval_eq]
  exact fun k _ _ => invInterval_chain s v id seed k

/-- Settles O36: the stored Block updates one point of the chain, and Inv under an identifier's schedule is injective. -/
theorem changedCheckpointIsRejected : Obligations.ChangedCheckpointIsRejected := by
  unfold Obligations.ChangedCheckpointIsRejected
  intro s t v first last id seed c c' k hfwd hinv hseed hwf hk hst hc hne
  obtain ⟨hle, hlt⟩ := potVerify_wellFormed_range hwf
  obtain ⟨_, hst', hpoint, hcomp⟩ := exec_potProve_leaves_chain v hfwd hseed
  obtain rfl := Host.Outcome.next.inj (hst.symm.trans hst')
  have hrange : t.RangeHolds first.toNat last.toNat _ := fun j _ hj => hpoint j (by omega)
  have hpoint_k := hpoint (k + 1) (by omega)
  rw [← checkpoint_eq_chainPoint, hc] at hpoint_k
  have hks : (t.setCheckpoint k c').ksInv = some (keyExpand s.cfg.cipher id).2 :=
    (ksInv_setCheckpoint t k c').trans (hcomp.ksInv_of_proof.trans hinv)
  have hinterval : (t.setCheckpoint k c').invInterval = s.invInterval := hcomp.invInterval_eq
  have hverify := exec_potVerify_of_rangeHolds (v := v) hle hks (hrange.setCheckpoint k c')
  refine ⟨_, hverify, ?_⟩
  rw [State.finish_vok, State.setVok_vok, decide_eq_false_iff_not, hinterval]
  exact not_intervalsMatch_update ((permInvBlock_injective s.cfg.cipher id).iterate _) (invInterval_chain s v id seed)
    (Option.some.inj hpoint_k ▸ hne) hk

/-- Settles O37: both parts check the single one's points under its schedule, and their ranges make up the whole. -/
theorem splitVerifyEqualsWhole : Obligations.SplitVerifyEqualsWhole := by
  unfold Obligations.SplitVerifyEqualsWhole
  intro s x y t tx ty v first m m' last hfm hm hml hxinv hyinv hxiter hyiter hx hy ht htx hty
  obtain ⟨ks, p, hks, hp⟩ := operands_of_exec_potVerify ht
  obtain ⟨hxks, hxp⟩ := operands_of_readSet_agree hx fun k hfk hkm => hp k hfk (by omega)
  obtain ⟨hyks, hyp⟩ := operands_of_readSet_agree hy fun k hmk hkl => hp k (by omega) hkl
  have hxint : x.invInterval = s.invInterval := by unfold State.invInterval; rw [hxinv, hxiter]
  have hyint : y.invInterval = s.invInterval := by unfold State.invInterval; rw [hyinv, hyiter]
  rw [vok_of_exec_potVerify ht (by omega) hks hp, vok_of_exec_potVerify htx hfm (hxks.trans hks) hxp,
    vok_of_exec_potVerify hty hml (hyks.trans hks) hyp, hxint, hyint, hm, ← Bool.decide_and, decide_eq_decide]
  exact intervalsMatch_split _ _ hfm (by omega)

end Sys2Proof.Machine
end

section
/-! Errors (60_exceptions.md): acknowledging one, and what a launch makes of ERR, ERRCODE and DONE (R295). -/

namespace Sys2Proof.Machine

theorem writeStatus_acknowledges {d : Word} (hd : d.getLsbD 2 = true) (s : State) :
    (writeStatus d s).err = false ∧ (writeStatus d s).errcode = 0 := by
  rw [writeStatus, if_pos hd]
  exact ⟨State.acknowledge_err _, State.acknowledge_errcode _⟩

/-- After a launch the engine runs if it ran before, or if Check found nothing against the word: of the state, only BUSY and
what Check reads decide (R140). -/
theorem launch_busy (d : Word) (s : State) : (launch d s).busy = (s.busy || (check s d).isNone) := by
  rcases launch_cases d s with ⟨hb, he⟩ | ⟨hb, e, hc, he⟩ | ⟨hb, hc, he⟩
  · rw [he, State.reject_busy, hb, Bool.true_or]
  · rw [he, State.reject_busy, hb, hc]; rfl
  · rw [he, State.accept_busy, hb, hc]; rfl

/-- Settles O49: a rejection stores its own code whatever stood there, and whether a launch is accepted depends on BUSY and
Check alone, and Check reads none of ERR, ERRCODE and DONE. -/
theorem errorsNeverBlockLaunches : Obligations.ErrorsNeverBlockLaunches := by
  unfold Obligations.ErrorsNeverBlockLaunches
  refine ⟨fun s d hd => ?_, fun s d e _ hidle hc => ?_, fun s d e dn c => ?_⟩
  · rw [hostWrite_status]
    exact writeStatus_acknowledges hd s
  · rw [launch_of_check hidle hc]
    exact ⟨State.reject_err s e, State.reject_errcode s e⟩
  · have hcheck : check { s with err := e, errcode := c, done := dn } d = check s d := check_congr rfl rfl rfl d
    exact ⟨hcheck, by rw [launch_busy, launch_busy, hcheck]⟩

end Sys2Proof.Machine
end

section
/-! Reset (70_reset_and_hazards.md): what a soft reset makes of memory and of the control state, and which commands the reset
state takes. -/

namespace Sys2Proof.Machine

/-! ## Soft reset (R331) -/

theorem abandon_of_idle {s : State} (h : s.busy = false) : s.abandon = s := by simp [State.abandon, h]

theorem abandon_of_running {s : State} {i : Instr} (hb : s.busy = true) (hd : decode s.cur = .ok i) :
    s.abandon = s.setMem (s.mem.undefine (writeSet s.cfg i)) := by
  simp only [State.abandon, hb, hd, if_true]

theorem softReset_mem (s : State) : s.softReset.mem = s.abandon.mem := State.resetControl_mem _

/-- Apart from memory, a soft reset sets the control state and nothing else, whether or not a command runs. -/
theorem softReset_frame (s : State) : s.softReset = (s.setMem s.softReset.mem).resetControl := by
  obtain ⟨m, hm, -⟩ := abandon_frame s
  rw [State.softReset, hm]
  rfl

/-- Settles O51: the running command's write set is what abandoning it makes undefined, and the rest is the control state's
reset. -/
theorem softResetPseudocode : Obligations.SoftResetPseudocode := by
  unfold Obligations.SoftResetPseudocode
  intro s d hd
  have hwrite : hostWrite 2 d s = s.softReset := by rw [hostWrite_ctrl, writeCtrl, if_pos hd]
  refine ⟨s.softReset, hwrite, fun i hb hi a => ?_, fun hidle => ?_, softReset_frame s⟩
  · rw [softReset_mem, abandon_of_running hb hi, State.setMem_mem, Mem.get_undefine]
  · rw [softReset_mem, abandon_of_idle hidle]

/-! ## An error while no command runs comes from a launch -/

/-- The word address of CMD is 4 (R36). -/
theorem wa_of_target_cmd {c : Config} {wa : BitVec 15} (h : target c (byteOffset wa) = .cmd) : wa = 4 := by
  have hoff : byteOffset wa = 16 := by
    unfold target at h
    split at h
    case h_5 hcmd => exact hcmd
    case h_8 => split at h <;> cases h
    all_goals cases h
  apply BitVec.eq_of_toNat_eq
  simp only [byteOffset] at hoff
  show wa.toNat = 4
  omega

theorem writeCtrl_err {s : State} (herr : s.err = false) (d : Word) : (writeCtrl d s).err = false := by
  unfold writeCtrl
  split
  · exact State.resetControl_err _
  · exact herr

/-- Of all host writes to an idle instance that shows no error, only one to CMD can raise one (R55, R141). -/
theorem eq_cmd_of_hostWrite_err {s : State} {wa : BitVec 15} {d : Word} (hidle : s.busy = false) (herr : s.err = false)
    (h : (hostWrite wa d s).err = true) : wa = 4 := by
  by_contra hwa
  have hnone : (hostWrite wa d s).err = false := by
    unfold hostWrite
    cases ht : target s.cfg (byteOffset wa) with
    | id | caps | reserved => exact herr
    | ctrl => exact writeCtrl_err herr d
    | status => simp [writeStatus_eq, herr]
    | cmd => exact absurd (wa_of_target_cmd ht) hwa
    | iter | breadth | data => simp [whenIdle_of_idle hidle, herr]
  simp [hnone] at h

/-! ## Launches of a command's own word -/

theorem launch_encode_rejected {s : State} {i : Instr} {e : ErrCode} (hidle : s.busy = false)
    (h : instrError s i = some e) : launch (encode i) s = s.reject e :=
  launch_of_check hidle ((check_of_ok (decodeOfEncode i) s).trans h)

theorem launch_encode_accepted {s : State} {i : Instr} (hidle : s.busy = false) (h : instrError s i = none) :
    launch (encode i) s = s.accept (encode i) := by
  simp [launch, hidle, check_of_ok (decodeOfEncode i), h]

/-! ## What Check says of accepted fields while ITER = 0 (R144, R333) -/

theorem countError_of_accepted {s : State} {n : BitVec 4} (hlegal : legalCounts.contains n.toNat = true)
    (hkset : s.cfg.accepts n.toNat = true) : countError s n = none := by
  simp only [countError, hlegal, hkset, Bool.not_true, Bool.false_eq_true, if_false]

theorem vparError_of_legal {v : BitVec 5} (h : legalCheckpointCounts.contains v.toNat = true) : vparError v = none := by
  simp only [vparError, h, Bool.not_true, Bool.false_eq_true, if_false]

theorem por_badIter {s : State} {n : BitVec 4} (hn : countError s n = none) (hiter : s.iter = 0) :
    instrError s (.porEnc n) = some .badIter ∧ instrError s (.porDec n) = some .badIter := by
  have hpor : (countError s n).or ((porIterError s).or (breadthError s)) = some .badIter := by
    rw [hn, porIterError, if_pos (by simp [State.rounds, hiter])]
    rfl
  exact ⟨hpor, hpor⟩

theorem potProve_badIter {s : State} {v : BitVec 5} (hv : vparError v = none) (hiter : s.iter = 0) :
    instrError s (.potProve v) = some .badIter := by
  rw [instrError, hv, proveIterError, if_pos (.inl (by simp [State.rounds, hiter]))]
  rfl

theorem potVerify_badIter {s : State} {v : BitVec 5} {first last : BitVec 4} (hv : vparError v = none)
    (hrange : rangeError v first last = none) (hiter : s.iter = 0) :
    instrError s (.potVerify v first last) = some .badIter := by
  rw [instrError, hv, hrange, verifyIterError, if_pos (.inl (by simp [State.rounds, hiter]))]
  rfl

theorem potVerify_fields_legal {v : BitVec 5} {first last : BitVec 4}
    (h : (Instr.potVerify v first last).wellFormed = true) : vparError v = none ∧ rangeError v first last = none := by
  refine ⟨vparError_of_legal ?_, if_pos (potVerify_wellFormed_range h)⟩
  simp only [Instr.wellFormed, Bool.and_eq_true] at h
  obtain ⟨⟨hv, -⟩, -⟩ := h
  exact hv

/-- Settles O52: the reset state is idle and shows no error; a POR or POT command whose fields pass comes to the test of ITER,
which is 0, and a PERM command has no test but that of its count. -/
theorem resetStateRejectsPorAndPot : Obligations.ResetStateRejectsPorAndPot := by
  unfold Obligations.ResetStateRejectsPorAndPot
  intro c n v first last r
  have hidle : r.busy = false := rfl
  have hiter : r.iter = 0 := rfl
  refine ⟨rfl, rfl, fun wa d => eq_cmd_of_hostWrite_err hidle rfl, fun hlegal hkset => ?_, fun hfields => ?_⟩
  · have hn : countError r n = none := countError_of_accepted hlegal hkset
    obtain ⟨henc, hdec⟩ := por_badIter hn hiter
    exact ⟨launch_encode_rejected hidle henc, launch_encode_rejected hidle hdec,
      launch_encode_accepted hidle hn, launch_encode_accepted hidle hn⟩
  · obtain ⟨hv, hrange⟩ := potVerify_fields_legal hfields
    exact ⟨launch_encode_rejected hidle (potProve_badIter hv hiter),
      launch_encode_rejected hidle (potVerify_badIter hv hrange hiter)⟩

end Sys2Proof.Machine
end
